-- ==== Sys2Proof/Word.lean ====
section
/-! DEFINITION. The one data width of CESC: an 8-bit byte, with its unsigned and signed readings
(spec/00_scope.md R5, R8, R9). -/

namespace Sys2Proof

/-- An 8-bit pattern: every register, address, immediate and memory cell (R9). Bit 7 is the most
significant (R8). -/
abbrev Byte := BitVec 8

/-- `u(v)`, the unsigned reading, 0 to 255 (R9). -/
abbrev unsigned (v : Byte) : Nat := v.toNat

/-- `s(v)`, the two's complement reading, -128 to 127 (R9). -/
abbrev signed (v : Byte) : Int := v.toInt

end Sys2Proof
end

