-- ==== Sys2Proof/Syntax.lean ====
section
/-! DEFINITION. The syntax of CESCA: registers, ALU functions, and the 69 instruction forms of
spec/opcode_table.json, one constructor each. An operand has exactly the width of its field
(a register name for a 2-bit field, R15; a byte for Imm8 and Addr8, R65), so every term of `Instr`
is an instruction of the machine. -/

namespace Sys2Proof

/-- The four general registers (10_state.md R14). -/
inductive Reg where
  | r0 | r1 | r2 | r3
  deriving DecidableEq, Repr

/-- The sixteen ALU functions, in the order of their 4-bit Funct code (30_encoding.md R73). -/
inductive Funct where
  | move | add | sub | addc | subb | and | or | not
  | xor | nand | nor | xnor | sll | srl | sra | rol
  deriving DecidableEq, Repr

/-- The instructions, one constructor per row of spec/opcode_table.json, in its order. `rd` is the
destination field D, `ra` the field A, `rb` the field B, `imm` an Imm8 and `addr` an Addr8. -/
inductive Instr where
  /-- MOVE Rd, Ra (R82) -/
  | move (rd ra : Reg)
  /-- ADD Rd, Ra, Rb (R83) -/
  | add (rd ra rb : Reg)
  /-- SUB Rd, Ra, Rb (R84) -/
  | sub (rd ra rb : Reg)
  /-- ADDC Rd, Ra, Rb (R85) -/
  | addc (rd ra rb : Reg)
  /-- SUBB Rd, Ra, Rb (R86) -/
  | subb (rd ra rb : Reg)
  /-- AND Rd, Ra, Rb (R87) -/
  | and (rd ra rb : Reg)
  /-- OR Rd, Ra, Rb (R88) -/
  | or (rd ra rb : Reg)
  /-- NOT Rd, Ra (R89) -/
  | not (rd ra : Reg)
  /-- XOR Rd, Ra, Rb (R90) -/
  | xor (rd ra rb : Reg)
  /-- NAND Rd, Ra, Rb (R91) -/
  | nand (rd ra rb : Reg)
  /-- NOR Rd, Ra, Rb (R92) -/
  | nor (rd ra rb : Reg)
  /-- XNOR Rd, Ra, Rb (R93) -/
  | xnor (rd ra rb : Reg)
  /-- SLL Rd, Ra (R94) -/
  | sll (rd ra : Reg)
  /-- SRL Rd, Ra (R95) -/
  | srl (rd ra : Reg)
  /-- SRA Rd, Ra (R96) -/
  | sra (rd ra : Reg)
  /-- ROL Rd, Ra (R97) -/
  | rol (rd ra : Reg)
  /-- ADDI Rd, Ra, Imm8 (R98) -/
  | addi (rd ra : Reg) (imm : Byte)
  /-- ANDI Rd, Ra, Imm8 (R99) -/
  | andi (rd ra : Reg) (imm : Byte)
  /-- CMP-MOVE Ra (R101) -/
  | cmpMove (ra : Reg)
  /-- CMP-ADD Ra, Rb (R102) -/
  | cmpAdd (ra rb : Reg)
  /-- CMP-SUB Ra, Rb (R103) -/
  | cmpSub (ra rb : Reg)
  /-- CMP-ADDC Ra, Rb (R104) -/
  | cmpAddc (ra rb : Reg)
  /-- CMP-SUBB Ra, Rb (R105) -/
  | cmpSubb (ra rb : Reg)
  /-- CMP-AND Ra, Rb (R106) -/
  | cmpAnd (ra rb : Reg)
  /-- CMP-OR Ra, Rb (R107) -/
  | cmpOr (ra rb : Reg)
  /-- CMP-NOT Ra (R108) -/
  | cmpNot (ra : Reg)
  /-- CMP-XOR Ra, Rb (R109) -/
  | cmpXor (ra rb : Reg)
  /-- CMP-NAND Ra, Rb (R110) -/
  | cmpNand (ra rb : Reg)
  /-- CMP-NOR Ra, Rb (R111) -/
  | cmpNor (ra rb : Reg)
  /-- CMP-XNOR Ra, Rb (R112) -/
  | cmpXnor (ra rb : Reg)
  /-- CMP-SLL Ra (R113) -/
  | cmpSll (ra : Reg)
  /-- CMP-SRL Ra (R114) -/
  | cmpSrl (ra : Reg)
  /-- CMP-SRA Ra (R115) -/
  | cmpSra (ra : Reg)
  /-- CMP-ROL Ra (R116) -/
  | cmpRol (ra : Reg)
  /-- CMP-SUBI Ra, Imm8 (R117) -/
  | cmpSubi (ra : Reg) (imm : Byte)
  /-- CMP-ANDI Ra, Imm8 (R118) -/
  | cmpAndi (ra : Reg) (imm : Byte)
  /-- CLF (R119) -/
  | clf
  /-- LI Rd, Imm8 (R130) -/
  | li (rd : Reg) (imm : Byte)
  /-- ST-Addr Ra, Addr8 (R131): Ra is the source -/
  | stAddr (ra : Reg) (addr : Byte)
  /-- ST-Reg Ra, Rb (R132): Ra is the source, Rb holds the address -/
  | stReg (ra rb : Reg)
  /-- PUSH Ra (R133) -/
  | push (ra : Reg)
  /-- LD-Addr Rd, Addr8 (R134) -/
  | ldAddr (rd : Reg) (addr : Byte)
  /-- LD-Reg Rd, Ra (R135) -/
  | ldReg (rd ra : Reg)
  /-- POP Rd (R136) -/
  | pop (rd : Reg)
  /-- SWAP Rd, Ra (R137) -/
  | swap (rd ra : Reg)
  /-- J Addr8 (R150) -/
  | j (addr : Byte)
  /-- JR Ra (R151) -/
  | jr (ra : Reg)
  /-- JAL Addr8 (R152) -/
  | jal (addr : Byte)
  /-- RET (R153) -/
  | ret
  /-- JZ Addr8 (R154) -/
  | jz (addr : Byte)
  /-- JNZ Addr8 (R155) -/
  | jnz (addr : Byte)
  /-- JC Addr8 (R156) -/
  | jc (addr : Byte)
  /-- JNC Addr8 (R157) -/
  | jnc (addr : Byte)
  /-- JV Addr8 (R158) -/
  | jv (addr : Byte)
  /-- JNV Addr8 (R159) -/
  | jnv (addr : Byte)
  /-- JN Addr8 (R160) -/
  | jn (addr : Byte)
  /-- JP Addr8 (R161) -/
  | jp (addr : Byte)
  /-- JSP Addr8 (R162) -/
  | jsp (addr : Byte)
  /-- JLEU Addr8 (R163) -/
  | jleu (addr : Byte)
  /-- JLT Addr8 (R164) -/
  | jlt (addr : Byte)
  /-- JLE Addr8 (R165) -/
  | jle (addr : Byte)
  /-- LCD-Com Imm8 (R180) -/
  | lcdCom (imm : Byte)
  /-- LCD-Imm Imm8 (R181) -/
  | lcdImm (imm : Byte)
  /-- LCD-Reg Ra (R182) -/
  | lcdReg (ra : Reg)
  /-- LCD-Addr Addr8 (R183) -/
  | lcdAddr (addr : Byte)
  /-- DEC-Reg Ra (R184) -/
  | decReg (ra : Reg)
  /-- DEC-Addr Addr8 (R185) -/
  | decAddr (addr : Byte)
  /-- HLT (R186) -/
  | hlt
  /-- NOP (R187) -/
  | nop
  deriving DecidableEq, Repr

end Sys2Proof
end

