-- ==== Sys2Proof/WellFormed.lean ====
section
/-! DEFINITION. Which instruction words and which program texts are well formed. A term of `Instr`
needs no check: its operand types are exactly its fields. What can be ill formed is a word (the one
reserved group, 30_encoding.md R70) and a program text (R74). -/

namespace Sys2Proof

/-- The reserved words: opcode byte `001111XX` with argument bits 7:6 other than `01` (R70). -/
def wordReserved (op arg : Byte) : Bool :=
  op.extractLsb' 2 6 == 0b001111#6 && arg.extractLsb' 6 2 != 0b01#2

/-- A word (opcode byte, argument byte) to which the spec gives an instruction (R69, R70). -/
def wordWellFormed (w : Byte × Byte) : Bool :=
  !wordReserved w.1 w.2

/-- A program text fits the two program banks: at most 256 instructions (R74). -/
def programFits (p : List (Byte × Byte)) : Bool :=
  decide (p.length ≤ 256)

/-- A program text a model may run: it fits (R74) and holds no reserved word (R70). -/
def programWellFormed (p : List (Byte × Byte)) : Bool :=
  programFits p && p.all wordWellFormed

end Sys2Proof
end

