-- ==== Sys2Proof/Decode.lean ====
section
/-! DEFINITION. The decoder (30_encoding.md R61 to R70, R73), total on every pair of bytes, and the
encoder that writes an instruction's two bytes. A word is (opcode byte, argument byte); as one
number it is `opcode byte * 256 + argument byte` (00_scope.md R8). -/

namespace Sys2Proof

/-! ### Fields of the two bytes (R61, R62) -/

/-- Opcode byte bits 7:4, the major opcode O. -/
def majorBits (op : Byte) : BitVec 4 := op.extractLsb' 4 4

/-- Opcode byte bits 3:2, field D: a destination register or an extended opcode (R67). -/
def destBits (op : Byte) : BitVec 2 := op.extractLsb' 2 2

/-- Opcode byte bits 1:0, field A. -/
def firstBits (op : Byte) : BitVec 2 := op.extractLsb' 0 2

/-- Argument byte bits 7:4, the Funct field F. -/
def functBits (arg : Byte) : BitVec 4 := arg.extractLsb' 4 4

/-- Argument byte bits 1:0, field B. -/
def secondBits (arg : Byte) : BitVec 2 := arg.extractLsb' 0 2

/-- Argument byte bits 7:6, which CLF fixes to `01` (R70). -/
def clfBits (arg : Byte) : BitVec 2 := arg.extractLsb' 6 2

/-- The register a 2-bit field names (10_state.md R15). -/
def Reg.ofBits (b : BitVec 2) : Reg :=
  match b.toNat with
  | 0 => .r0
  | 1 => .r1
  | 2 => .r2
  | _ => .r3

/-- The 2-bit number of a register (10_state.md R15). -/
def Reg.toBits : Reg → BitVec 2
  | .r0 => 0b00#2
  | .r1 => 0b01#2
  | .r2 => 0b10#2
  | .r3 => 0b11#2

/-- The ALU function a 4-bit Funct selects (R73): all sixteen values are assigned. -/
def Funct.ofBits (f : BitVec 4) : Funct :=
  match f.toNat with
  | 0 => .move
  | 1 => .add
  | 2 => .sub
  | 3 => .addc
  | 4 => .subb
  | 5 => .and
  | 6 => .or
  | 7 => .not
  | 8 => .xor
  | 9 => .nand
  | 10 => .nor
  | 11 => .xnor
  | 12 => .sll
  | 13 => .srl
  | 14 => .sra
  | _ => .rol

/-- The 4-bit Funct code of an ALU function (R73). -/
def Funct.toBits : Funct → BitVec 4
  | .move => 0b0000#4
  | .add => 0b0001#4
  | .sub => 0b0010#4
  | .addc => 0b0011#4
  | .subb => 0b0100#4
  | .and => 0b0101#4
  | .or => 0b0110#4
  | .not => 0b0111#4
  | .xor => 0b1000#4
  | .nand => 0b1001#4
  | .nor => 0b1010#4
  | .xnor => 0b1011#4
  | .sll => 0b1100#4
  | .srl => 0b1101#4
  | .sra => 0b1110#4
  | .rol => 0b1111#4

/-! ### Decoding -/

/-- What the decoder answers: an instruction, or that the word is one of the reserved ones (R70). -/
inductive Decoded where
  | instr (i : Instr)
  | reserved (op arg : Byte)
  deriving DecidableEq, Repr

/-- The ALU operation that a Funct selects under opcode byte `0000DDAA` (R66, R73). -/
def aluInstr (f : Funct) (rd ra rb : Reg) : Instr :=
  match f with
  | .move => .move rd ra
  | .add => .add rd ra rb
  | .sub => .sub rd ra rb
  | .addc => .addc rd ra rb
  | .subb => .subb rd ra rb
  | .and => .and rd ra rb
  | .or => .or rd ra rb
  | .not => .not rd ra
  | .xor => .xor rd ra rb
  | .nand => .nand rd ra rb
  | .nor => .nor rd ra rb
  | .xnor => .xnor rd ra rb
  | .sll => .sll rd ra
  | .srl => .srl rd ra
  | .sra => .sra rd ra
  | .rol => .rol rd ra

/-- The compare operation that a Funct selects under opcode byte `001100AA` (R66, R73). -/
def cmpInstr (f : Funct) (ra rb : Reg) : Instr :=
  match f with
  | .move => .cmpMove ra
  | .add => .cmpAdd ra rb
  | .sub => .cmpSub ra rb
  | .addc => .cmpAddc ra rb
  | .subb => .cmpSubb ra rb
  | .and => .cmpAnd ra rb
  | .or => .cmpOr ra rb
  | .not => .cmpNot ra
  | .xor => .cmpXor ra rb
  | .nand => .cmpNand ra rb
  | .nor => .cmpNor ra rb
  | .xnor => .cmpXnor ra rb
  | .sll => .cmpSll ra
  | .srl => .cmpSrl ra
  | .sra => .cmpSra ra
  | .rol => .cmpRol ra

/-- Major opcode `0011`: compares and CLF, chosen by field D (R67, R69, R70). -/
def decodeCompare (op arg : Byte) : Decoded :=
  let ra := Reg.ofBits (firstBits op)
  match (destBits op).toNat with
  | 0 => .instr (cmpInstr (Funct.ofBits (functBits arg)) ra (Reg.ofBits (secondBits arg)))
  | 1 => .instr (.cmpSubi ra arg)
  | 2 => .instr (.cmpAndi ra arg)
  | _ => if clfBits arg = 0b01#2 then .instr .clf else .reserved op arg

/-- Major opcode `0101`: stores and PUSH (R67, R69). -/
def decodeStore (op arg : Byte) : Instr :=
  let ra := Reg.ofBits (firstBits op)
  match (destBits op).toNat with
  | 0 => .stAddr ra arg
  | 1 => .stReg ra (Reg.ofBits (secondBits arg))
  | _ => .push ra

/-- Major opcode `1010`: J, JR, JAL, RET (R67, R69). -/
def decodeJump (op arg : Byte) : Instr :=
  match (destBits op).toNat with
  | 0 => .j arg
  | 1 => .jr (Reg.ofBits (firstBits op))
  | 2 => .jal arg
  | _ => .ret

/-- One of four instructions by field D (R67). -/
def byExtended (op : Byte) (i0 i1 i2 i3 : Instr) : Instr :=
  match (destBits op).toNat with
  | 0 => i0
  | 1 => i1
  | 2 => i2
  | _ => i3

/-- The decoding procedure of R69 on any opcode byte and argument byte. Bits printed X are not
looked at (R68). -/
def decode (op arg : Byte) : Decoded :=
  let rd := Reg.ofBits (destBits op)
  let ra := Reg.ofBits (firstBits op)
  match (majorBits op).toNat with
  | 0 => .instr (aluInstr (Funct.ofBits (functBits arg)) rd ra (Reg.ofBits (secondBits arg)))
  | 1 => .instr (.addi rd ra arg)
  | 2 => .instr (.andi rd ra arg)
  | 3 => decodeCompare op arg
  | 4 => .instr (.li rd arg)
  | 5 => .instr (decodeStore op arg)
  | 6 => .instr (.ldAddr rd arg)
  | 7 => .instr (.ldReg rd ra)
  | 8 => .instr (.pop rd)
  | 9 => .instr (.swap rd ra)
  | 10 => .instr (decodeJump op arg)
  | 11 => .instr (byExtended op (.jz arg) (.jnz arg) (.jc arg) (.jnc arg))
  | 12 => .instr (byExtended op (.jv arg) (.jnv arg) (.jn arg) (.jp arg))
  | 13 => .instr (byExtended op (.jsp arg) (.jleu arg) (.jlt arg) (.jle arg))
  | 14 => .instr (byExtended op (.lcdCom arg) (.lcdImm arg) (.lcdReg ra) (.lcdAddr arg))
  | _ => .instr (byExtended op (.decReg ra) (.decAddr arg) .hlt .nop)

/-- The two bytes of a word that spec/opcode_table.json numbers as `w`: it is one 16-bit word, its
opcode byte in bits 15:8 (R8). Bits at `nbits` and above are 0. -/
def tableBytes (nbits w : Nat) : Byte × Byte :=
  let v := w % 2 ^ nbits
  (BitVec.ofNat 8 (v / 256), BitVec.ofNat 8 v)

/-- The instruction that the decoder reads from a word numbered as the opcode table numbers it. -/
def decodeTableWord (nbits w : Nat) : Option Instr :=
  match decode (tableBytes nbits w).1 (tableBytes nbits w).2 with
  | .instr i => some i
  | .reserved _ _ => none

/-! ### Encoding -/

/-- An opcode byte from its three fields (R61). -/
def opcodeByte (major : BitVec 4) (d a : BitVec 2) : Byte := major ++ d ++ a

/-- A Register-format argument byte `FFFFXXBB` with its don't-care bits 0 (R62, R68). -/
def functByte (f : Funct) (b : BitVec 2) : Byte := f.toBits ++ 0b00#2 ++ b

/-- The word of an ALU operation (R81); `b` is 0 where the function ignores Rb (R68). -/
def encodeAlu (f : Funct) (rd ra : Reg) (b : BitVec 2) : Byte × Byte :=
  (opcodeByte 0b0000#4 rd.toBits ra.toBits, functByte f b)

/-- The word of a compare operation (R100). -/
def encodeCmp (f : Funct) (ra : Reg) (b : BitVec 2) : Byte × Byte :=
  (opcodeByte 0b0011#4 0b00#2 ra.toBits, functByte f b)

/-- The word of an instruction (R66), 0 in every don't-care position (R68, decision D13). -/
def encode : Instr → Byte × Byte
  | .move rd ra => encodeAlu .move rd ra 0
  | .add rd ra rb => encodeAlu .add rd ra rb.toBits
  | .sub rd ra rb => encodeAlu .sub rd ra rb.toBits
  | .addc rd ra rb => encodeAlu .addc rd ra rb.toBits
  | .subb rd ra rb => encodeAlu .subb rd ra rb.toBits
  | .and rd ra rb => encodeAlu .and rd ra rb.toBits
  | .or rd ra rb => encodeAlu .or rd ra rb.toBits
  | .not rd ra => encodeAlu .not rd ra 0
  | .xor rd ra rb => encodeAlu .xor rd ra rb.toBits
  | .nand rd ra rb => encodeAlu .nand rd ra rb.toBits
  | .nor rd ra rb => encodeAlu .nor rd ra rb.toBits
  | .xnor rd ra rb => encodeAlu .xnor rd ra rb.toBits
  | .sll rd ra => encodeAlu .sll rd ra 0
  | .srl rd ra => encodeAlu .srl rd ra 0
  | .sra rd ra => encodeAlu .sra rd ra 0
  | .rol rd ra => encodeAlu .rol rd ra 0
  | .addi rd ra imm => (opcodeByte 0b0001#4 rd.toBits ra.toBits, imm)
  | .andi rd ra imm => (opcodeByte 0b0010#4 rd.toBits ra.toBits, imm)
  | .cmpMove ra => encodeCmp .move ra 0
  | .cmpAdd ra rb => encodeCmp .add ra rb.toBits
  | .cmpSub ra rb => encodeCmp .sub ra rb.toBits
  | .cmpAddc ra rb => encodeCmp .addc ra rb.toBits
  | .cmpSubb ra rb => encodeCmp .subb ra rb.toBits
  | .cmpAnd ra rb => encodeCmp .and ra rb.toBits
  | .cmpOr ra rb => encodeCmp .or ra rb.toBits
  | .cmpNot ra => encodeCmp .not ra 0
  | .cmpXor ra rb => encodeCmp .xor ra rb.toBits
  | .cmpNand ra rb => encodeCmp .nand ra rb.toBits
  | .cmpNor ra rb => encodeCmp .nor ra rb.toBits
  | .cmpXnor ra rb => encodeCmp .xnor ra rb.toBits
  | .cmpSll ra => encodeCmp .sll ra 0
  | .cmpSrl ra => encodeCmp .srl ra 0
  | .cmpSra ra => encodeCmp .sra ra 0
  | .cmpRol ra => encodeCmp .rol ra 0
  | .cmpSubi ra imm => (opcodeByte 0b0011#4 0b01#2 ra.toBits, imm)
  | .cmpAndi ra imm => (opcodeByte 0b0011#4 0b10#2 ra.toBits, imm)
  | .clf => (opcodeByte 0b0011#4 0b11#2 0b00#2, 0x40)
  | .li rd imm => (opcodeByte 0b0100#4 rd.toBits 0b00#2, imm)
  | .stAddr ra addr => (opcodeByte 0b0101#4 0b00#2 ra.toBits, addr)
  | .stReg ra rb => (opcodeByte 0b0101#4 0b01#2 ra.toBits, 0b000000#6 ++ rb.toBits)
  | .push ra => (opcodeByte 0b0101#4 0b10#2 ra.toBits, 0)
  | .ldAddr rd addr => (opcodeByte 0b0110#4 rd.toBits 0b00#2, addr)
  | .ldReg rd ra => (opcodeByte 0b0111#4 rd.toBits ra.toBits, 0)
  | .pop rd => (opcodeByte 0b1000#4 rd.toBits 0b00#2, 0)
  | .swap rd ra => (opcodeByte 0b1001#4 rd.toBits ra.toBits, 0)
  | .j addr => (opcodeByte 0b1010#4 0b00#2 0b00#2, addr)
  | .jr ra => (opcodeByte 0b1010#4 0b01#2 ra.toBits, 0)
  | .jal addr => (opcodeByte 0b1010#4 0b10#2 0b00#2, addr)
  | .ret => (opcodeByte 0b1010#4 0b11#2 0b00#2, 0)
  | .jz addr => (opcodeByte 0b1011#4 0b00#2 0b00#2, addr)
  | .jnz addr => (opcodeByte 0b1011#4 0b01#2 0b00#2, addr)
  | .jc addr => (opcodeByte 0b1011#4 0b10#2 0b00#2, addr)
  | .jnc addr => (opcodeByte 0b1011#4 0b11#2 0b00#2, addr)
  | .jv addr => (opcodeByte 0b1100#4 0b00#2 0b00#2, addr)
  | .jnv addr => (opcodeByte 0b1100#4 0b01#2 0b00#2, addr)
  | .jn addr => (opcodeByte 0b1100#4 0b10#2 0b00#2, addr)
  | .jp addr => (opcodeByte 0b1100#4 0b11#2 0b00#2, addr)
  | .jsp addr => (opcodeByte 0b1101#4 0b00#2 0b00#2, addr)
  | .jleu addr => (opcodeByte 0b1101#4 0b01#2 0b00#2, addr)
  | .jlt addr => (opcodeByte 0b1101#4 0b10#2 0b00#2, addr)
  | .jle addr => (opcodeByte 0b1101#4 0b11#2 0b00#2, addr)
  | .lcdCom imm => (opcodeByte 0b1110#4 0b00#2 0b00#2, imm)
  | .lcdImm imm => (opcodeByte 0b1110#4 0b01#2 0b00#2, imm)
  | .lcdReg ra => (opcodeByte 0b1110#4 0b10#2 ra.toBits, 0)
  | .lcdAddr addr => (opcodeByte 0b1110#4 0b11#2 0b00#2, addr)
  | .decReg ra => (opcodeByte 0b1111#4 0b00#2 ra.toBits, 0)
  | .decAddr addr => (opcodeByte 0b1111#4 0b01#2 0b00#2, addr)
  | .hlt => (opcodeByte 0b1111#4 0b10#2 0b00#2, 0)
  | .nop => (opcodeByte 0b1111#4 0b11#2 0b00#2, 0)

/-- The bits of (opcode byte, argument byte) that the hardware looks at for an instruction: 1 for a
fixed bit or a field bit, 0 for a bit that R66 prints X and R68 lists as don't care. -/
def careMask : Instr → Byte × Byte
  | .move _ _ | .not _ _ | .sll _ _ | .srl _ _ | .sra _ _ | .rol _ _ => (0xFF, 0xF0)
  | .add _ _ _ | .sub _ _ _ | .addc _ _ _ | .subb _ _ _ | .and _ _ _ | .or _ _ _ | .xor _ _ _
  | .nand _ _ _ | .nor _ _ _ | .xnor _ _ _ => (0xFF, 0xF3)
  | .addi _ _ _ | .andi _ _ _ => (0xFF, 0xFF)
  | .cmpMove _ | .cmpNot _ | .cmpSll _ | .cmpSrl _ | .cmpSra _ | .cmpRol _ => (0xFF, 0xF0)
  | .cmpAdd _ _ | .cmpSub _ _ | .cmpAddc _ _ | .cmpSubb _ _ | .cmpAnd _ _ | .cmpOr _ _ | .cmpXor _ _
  | .cmpNand _ _ | .cmpNor _ _ | .cmpXnor _ _ => (0xFF, 0xF3)
  | .cmpSubi _ _ | .cmpAndi _ _ => (0xFF, 0xFF)
  | .clf => (0xFC, 0xC0)
  | .li _ _ | .ldAddr _ _ => (0xFC, 0xFF)
  | .stAddr _ _ => (0xFF, 0xFF)
  | .stReg _ _ => (0xFF, 0x03)
  | .push _ => (0xFB, 0x00)
  | .pop _ => (0xFC, 0x00)
  | .ldReg _ _ | .swap _ _ => (0xFF, 0x00)
  | .jr _ | .lcdReg _ | .decReg _ => (0xFF, 0x00)
  | .j _ | .jal _ | .jz _ | .jnz _ | .jc _ | .jnc _ | .jv _
  | .jnv _ | .jn _ | .jp _ | .jsp _ | .jleu _ | .jlt _ | .jle _ => (0xFC, 0xFF)
  | .lcdCom _ | .lcdImm _ | .lcdAddr _ | .decAddr _ => (0xFC, 0xFF)
  | .ret | .hlt | .nop => (0xFC, 0x00)

end Sys2Proof
end

