-- ==== Sys2Proof/Machine/State.lean ====
section
/-! DEFINITION. The machine's state as plain data (10_state.md R13), why a step can stop, and the
machine right after reset (R31). -/

namespace Sys2Proof.Machine

/-- The four flags, four independent Booleans with no bit order (10_state.md R20, R23). -/
structure Flags where
  /-- Zero -/
  z : Bool
  /-- Carry, and borrow after a subtraction -/
  c : Bool
  /-- oVerflow -/
  v : Bool
  /-- Sign -/
  s : Bool
  deriving DecidableEq, Repr

/-- The tag of a byte handed to the LCD module (10_state.md R27). -/
inductive LcdKind where
  | command | data
  deriving DecidableEq, Repr

/-- One byte handed to the LCD module with its tag (10_state.md R27). -/
structure LcdByte where
  kind : LcdKind
  value : Byte
  deriving DecidableEq, Repr

/-- One bank of memory: the bytes that something has written, as (address, byte) pairs with strictly
rising addresses below 256 (20_memory.md R40). An unlisted address has no value yet. -/
abbrev Memory := List Host.Cell

/-- The whole state of CESC (10_state.md R13, R29), plus the counter `draws`. -/
structure State where
  /-- R0 (R14) -/
  r0 : Byte
  /-- R1 (R14) -/
  r1 : Byte
  /-- R2 (R14) -/
  r2 : Byte
  /-- R3 (R14) -/
  r3 : Byte
  /-- Program counter: the address of the instruction about to execute (R16) -/
  pc : Byte
  /-- Stack pointer (R18) -/
  sp : Byte
  /-- Z, C, V, S (R20) -/
  flags : Flags
  /-- Output register, shown by the decimal display (R26) -/
  out : Byte
  /-- Data memory (R29) -/
  data : Memory
  /-- Stack memory (R29) -/
  stack : Memory
  /-- Program memory high: opcode bytes (R29); a parameter of the run (00_scope.md R7) -/
  progHigh : Memory
  /-- Program memory low: argument bytes (R29); a parameter of the run (00_scope.md R7) -/
  progLow : Memory
  /-- Bytes handed to the LCD module, the first sent first (R27) -/
  lcd : List LcdByte
  /-- The halted mark (R30) -/
  halted : Bool
  /-- The model's own: how many free values have been drawn. Log entry 4. -/
  draws : Nat
  deriving DecidableEq, Repr

/-- Why the model stops. CESC itself raises no exception (60_exceptions.md R230). -/
inductive Fault where
  /-- Raised by `step` on a halted machine: no step exists after HLT (00_scope.md R11, 10_state.md
  R30). Safe: nothing is claimed of what follows. Log entry 6. -/
  | halted
  /-- Raised by `step` when the program text defines no instruction at `addr` (30_encoding.md R74,
  93_implementation_defined.md U10). Safe: the model stops where the machine would run an unknown
  byte. Log entry 7. -/
  | fetchUndefined (addr : Byte)
  deriving DecidableEq, Repr

/-- Why the model declines. -/
inductive Refusal where
  /-- The host's name for an instruction that has no meaning in the model; no arm of `exec` answers
  it, since every instruction is modelled. Safe. -/
  | notModelled (mnemonic : String)
  /-- Raised by `step` on a reserved word: opcode byte `001111XX` with argument bits 7:6 other than
  `01`, to which the spec gives no behaviour (30_encoding.md R70). Safe. Log entry 8. -/
  | reservedEncoding (op arg : Byte)
  deriving DecidableEq, Repr

/-- The outcome of a step or of an instruction. -/
abbrev Result := Host.Outcome State Fault Refusal

/-- What the spec leaves to the launch of a run: every value that it gives no reset value for
(10_state.md R31, R32), and the program (70_reset_and_hazards.md R258). The defaults are the model's
own choice, DESIGN CHOICE, unsafe: log entry 1. -/
structure Launch where
  r0 : Byte := 0
  r1 : Byte := 0
  r2 : Byte := 0
  r3 : Byte := 0
  flags : Flags := ⟨false, false, false, false⟩
  out : Byte := 0
  data : Memory := []
  stack : Memory := []
  progHigh : Memory := []
  progLow : Memory := []
  deriving DecidableEq, Repr

/-- The machine right after reset, with everything that the spec leaves unspecified given by the
launch: SP is 0xFF, PC is 0x00 (decision D4, log entry 3), the LCD trace is empty and the machine is
not halted (10_state.md R31). -/
def State.launch (l : Launch) : State where
  r0 := l.r0
  r1 := l.r1
  r2 := l.r2
  r3 := l.r3
  pc := 0x00
  sp := 0xFF
  flags := l.flags
  out := l.out
  data := l.data
  stack := l.stack
  progHigh := l.progHigh
  progLow := l.progLow
  lcd := []
  halted := false
  draws := 0

/-- The machine right after reset with the values the model names where the spec gives none: zero in
R0 to R3, the flags and OUT (log entry 1), and nothing written in any bank (log entries 2 and 7). -/
def State.reset : State := State.launch {}

end Sys2Proof.Machine
end

