-- ==== Sys2Proof/Machine/Flags.lean ====
section
/-! DEFINITION. Every flag computation of the ALU (10_state.md R20, 40_alu.md R80) and every jump
condition over the flags (42_jumps.md R154 to R165). -/

namespace Sys2Proof.Machine

/-! ### Computing the flags -/

/-- `z = (r = 0x00)` (R80). -/
def zeroOf (r : Byte) : Bool := decide (r = 0)

/-- `sgn = r[7]` (R80). -/
def signOf (r : Byte) : Bool := r.msb

/-- A carry-in as a number, 0 or 1. -/
def carryNat (cin : Bool) : Nat := if cin then 1 else 0

/-- A carry-in as a byte, 0 or 1. -/
def carryByte (cin : Bool) : Byte := if cin then 1 else 0

/-- C of an addition: the exact unsigned sum exceeds 255 (R80). -/
def carryOfAdd (a b : Byte) (cin : Bool) : Bool :=
  decide (unsigned a + unsigned b + carryNat cin > 255)

/-- C of a subtraction: a borrow, the unsigned minuend is smaller than what is subtracted (R80). -/
def borrowOfSub (a b : Byte) (cin : Bool) : Bool :=
  decide (unsigned a < unsigned b + carryNat cin)

/-- An exact signed result that a byte cannot hold (R80). -/
def outsideSigned (t : Int) : Bool := decide (t < -128) || decide (127 < t)

/-- V of an addition, the carry-in counted (R80; decision D24: log entry 17). -/
def overflowOfAdd (a b : Byte) (cin : Bool) : Bool :=
  outsideSigned (signed a + signed b + carryNat cin)

/-- V of a subtraction, the borrow counted (R80; decision D24: log entry 17). -/
def overflowOfSub (a b : Byte) (cin : Bool) : Bool :=
  outsideSigned (signed a - signed b - carryNat cin)

/-- C of SLL and ROL: the bit that leaves bit 7 (R80). -/
def shiftedOut (a : Byte) : Bool := a.msb

/-- The four flags of a result: Z and S from the byte, C and V as given (R80; Z and S of shifts too,
decision D27: log entry 28). -/
def flagsOf (r : Byte) (c v : Bool) : Flags := ⟨zeroOf r, c, v, signOf r⟩

/-- All four flags 0 (R119). -/
def flagsClear : Flags := ⟨false, false, false, false⟩

/-! ### Jump conditions -/

/-- JZ (R154). -/
def condZ (f : Flags) : Bool := f.z
/-- JNZ (R155). -/
def condNZ (f : Flags) : Bool := !f.z
/-- JC (R156). -/
def condC (f : Flags) : Bool := f.c
/-- JNC (R157). -/
def condNC (f : Flags) : Bool := !f.c
/-- JV (R158). -/
def condV (f : Flags) : Bool := f.v
/-- JNV (R159). -/
def condNV (f : Flags) : Bool := !f.v
/-- JN (R160). -/
def condN (f : Flags) : Bool := f.s
/-- JP (R161). -/
def condP (f : Flags) : Bool := !f.s
/-- JSP: neither S nor Z (R162). -/
def condSP (f : Flags) : Bool := !f.s && !f.z
/-- JLEU: C or Z (R163). -/
def condLEU (f : Flags) : Bool := f.c || f.z
/-- JLT: V xor S (R164). -/
def condLT (f : Flags) : Bool := f.v != f.s
/-- JLE: (V xor S) or Z (R165). -/
def condLE (f : Flags) : Bool := (f.v != f.s) || f.z

end Sys2Proof.Machine
end

