-- ==== Sys2Proof/Config.lean ====
section
/-! DEFINITION. What the spec leaves open and the machine goes on from: constants without a body,
so that nothing in Lean can evaluate them or prove a value of them. -/

namespace Sys2Proof

/-- The V flag left by the `n`-th undefined draw: SLL, SRL, SRA, ROL and their CMP forms leave V
undefined, drawn afresh each time (40_alu.md R80, 93_implementation_defined.md U1). Log entry 4. -/
opaque Config.undefinedV (n : Nat) : Bool

/-- What PC holds after HLT, at the `n`-th draw: the spec gives no value (43_output_misc.md R186,
93_implementation_defined.md U7). Log entry 5. -/
opaque Config.pcAfterHlt (n : Nat) : Byte

/-- The byte that data memory holds at `a` before anything is written there: unspecified, a
parameter of the launch (10_state.md R31, R32, 93_implementation_defined.md U3). Log entry 2. -/
opaque Config.initialData (a : Byte) : Byte

/-- The byte that stack memory holds at `a` before anything is written there: unspecified
(10_state.md R31, R32, 93_implementation_defined.md U4). Log entry 2. -/
opaque Config.initialStack (a : Byte) : Byte

end Sys2Proof
end

