-- ==== Sys2Proof/Machine/Ops.lean ====
section
/-! DEFINITION. The named operations over memory, registers, the stack and the devices (00_scope.md
R10, 10_state.md R19, 20_memory.md). CESC has no exception, no interrupt and no trap return
(60_exceptions.md R230 to R235), so there is no operation for taking one. -/

namespace Sys2Proof.Machine

/-! ### One bank of memory -/

/-- What a bank holds at an address: nothing where nothing was written. -/
def Memory.read : Memory → Nat → Option Byte
  | [], _ => none
  | (b, w) :: m, a => if a = b then some w else Memory.read m a

/-- Write one byte, keeping the addresses strictly rising. -/
def Memory.write : Memory → Nat → Byte → Memory
  | [], a, v => [(a, v)]
  | (b, w) :: m, a, v =>
    if a < b then (a, v) :: (b, w) :: m
    else if a = b then (a, v) :: m
    else (b, w) :: Memory.write m a v

/-- The addresses rise strictly from `lo` on and stay below 256. -/
def Memory.wfFrom : Nat → Memory → Bool
  | _, [] => true
  | lo, (a, _) :: m => decide (lo ≤ a) && decide (a < 256) && Memory.wfFrom (a + 1) m

/-- The canonical form of a bank: strictly rising addresses, all of them addresses of the bank
(20_memory.md R40). Equal contents are then equal lists. -/
def Memory.wf (m : Memory) : Bool := Memory.wfFrom 0 m

/-- All four banks are in canonical form. -/
def State.banksWf (s : State) : Bool :=
  s.data.wf && s.stack.wf && s.progHigh.wf && s.progLow.wf

/-! ### Registers, program counter, flags -/

/-- `x[r]`: read a general register (00_scope.md R10). -/
def State.reg (s : State) : Reg → Byte
  | .r0 => s.r0
  | .r1 => s.r1
  | .r2 => s.r2
  | .r3 => s.r3

/-- `x[r] <- v`: write a general register (00_scope.md R10); none is hardwired (10_state.md R14). -/
def State.setReg (s : State) (r : Reg) (v : Byte) : State :=
  match r with
  | .r0 => { s with r0 := v }
  | .r1 => { s with r1 := v }
  | .r2 => { s with r2 := v }
  | .r3 => { s with r3 := v }

/-- `pc <- t`. -/
def State.setPc (s : State) (t : Byte) : State := { s with pc := t }

/-- `next`, the address of the next instruction, modulo 256 (00_scope.md R11, 10_state.md R17,
decision D5: log entry 9). -/
def State.nextPc (s : State) : Byte := s.pc + 1

/-- The end of every instruction that does not write PC (00_scope.md R11). -/
def State.advance (s : State) : State := s.setPc s.nextPc

/-- Go to `t` if the condition holds, else to the next instruction (42_jumps.md). -/
def State.jumpIf (s : State) (cond : Bool) (t : Byte) : State :=
  s.setPc (if cond then t else s.nextPc)

/-- Write all four flags. -/
def State.setFlags (s : State) (f : Flags) : State := { s with flags := f }

/-- Count one free value as drawn (log entry 4). -/
def State.draw (s : State) : State := { s with draws := s.draws + 1 }

/-! ### Data memory -/

/-- `MemRead(DATA, a, 1)`: the byte last written at `a`, or the unspecified byte it held at launch
(10_state.md R32, 20_memory.md R47; log entry 2). -/
def State.dataByte (s : State) (a : Byte) : Byte :=
  (s.data.read a.toNat).getD (Config.initialData a)

/-- `MemWrite(DATA, a, 1, v)`. -/
def State.storeData (s : State) (a v : Byte) : State :=
  { s with data := s.data.write a.toNat v }

/-! ### Stack (10_state.md R19; decisions D6 and D7: log entry 10) -/

/-- `MemRead(STACK, a, 1)`, with an unspecified byte where nothing was pushed (R32, log entry 2). -/
def State.stackByte (s : State) (a : Byte) : Byte :=
  (s.stack.read a.toNat).getD (Config.initialStack a)

/-- `MemWrite(STACK, a, 1, v)`. -/
def State.storeStack (s : State) (a v : Byte) : State :=
  { s with stack := s.stack.write a.toNat v }

/-- `sp <- v`. -/
def State.setSp (s : State) (v : Byte) : State := { s with sp := v }

/-- The cell a push writes: the one at SP (R19). -/
def State.pushAddr (s : State) : Byte := s.sp

/-- The top of the stack: the cell at SP + 1, modulo 256 (R19). -/
def State.topAddr (s : State) : Byte := s.sp + 1

/-- `push(v)`: write at SP, then decrement SP, modulo 256 (R19). -/
def State.push (s : State) (v : Byte) : State :=
  (s.storeStack s.pushAddr v).setSp (s.sp - 1)

/-- The byte that `pop()` returns (R19). -/
def State.top (s : State) : Byte := s.stackByte s.topAddr

/-- The state after `pop()`: SP incremented, modulo 256; the popped cell keeps its content (R19,
41_data_movement.md R136). -/
def State.dropTop (s : State) : State := s.setSp (s.sp + 1)

/-- Replace the top of the stack, SP unchanged (41_data_movement.md R137). -/
def State.setTop (s : State) (v : Byte) : State := s.storeStack s.topAddr v

/-! ### Devices and the stopped clock -/

/-- `LcdSend(kind, v)`: append to the LCD trace (10_state.md R27). -/
def State.lcdSend (s : State) (kind : LcdKind) (v : Byte) : State :=
  { s with lcd := s.lcd ++ [⟨kind, v⟩] }

/-- `OUT <- v` (10_state.md R26). -/
def State.setOut (s : State) (v : Byte) : State := { s with out := v }

/-- `halt`: set the halted mark (10_state.md R30). -/
def State.halt (s : State) : State := { s with halted := true }

/-! ### Program memory -/

/-- The opcode byte and the argument byte at PC, where the program text defines both (00_scope.md
R11, 20_memory.md R45, 30_encoding.md R74). -/
def State.fetch (s : State) : Option (Byte × Byte) :=
  match s.progHigh.read s.pc.toNat, s.progLow.read s.pc.toNat with
  | some op, some arg => some (op, arg)
  | _, _ => none

/-- The host's act of placing one word of a program at an address (70_reset_and_hazards.md R258). -/
def State.placeWord (s : State) (a : Byte) (w : Byte × Byte) : State :=
  { s with
    progHigh := s.progHigh.write a.toNat w.1
    progLow := s.progLow.write a.toNat w.2 }

/-- Place words at `a`, `a + 1`, and so on. -/
def State.placeFrom (s : State) (a : Byte) : List (Byte × Byte) → State
  | [] => s
  | w :: ws => (s.placeWord a w).placeFrom (a + 1) ws

/-- The host's act of loading a program text: instruction `n` at address `n` (30_encoding.md R74,
70_reset_and_hazards.md R258). A text has at most 256 instructions; no more are placed. -/
def State.loadProgram (s : State) (p : List (Byte × Byte)) : State :=
  s.placeFrom 0 (p.take 256)

end Sys2Proof.Machine
end

