-- ==== Sys2Proof/Machine/Operands.lean ====
section
/-! DEFINITION. The operand forms of CESCA: a register, an immediate, and the three ways to name a
memory byte (30_encoding.md R65, 41_data_movement.md R138). -/

namespace Sys2Proof.Machine

/-- A register operand: the content of the register (30_encoding.md R65, 10_state.md R15). -/
def regOperand (s : State) (r : Reg) : Byte := s.reg r

/-- An immediate operand: `Imm8` as it stands (R65). -/
def immOperand (imm : Byte) : Byte := imm

/-- Addressing mode 1: the immediate address `Addr8` in data memory (R138). -/
def eaImmediate (addr : Byte) : Byte := addr

/-- Addressing mode 2: the data-memory address held in a general register (R138). -/
def eaRegister (s : State) (r : Reg) : Byte := s.reg r

/-- Addressing mode 3, pushing: the stack cell that a push writes (R138, 10_state.md R19). -/
def eaPush (s : State) : Byte := s.pushAddr

/-- Addressing mode 3, popping and swapping: the top stack cell (R138, 10_state.md R19). -/
def eaTop (s : State) : Byte := s.topAddr

/-- The byte of data memory at an immediate address. -/
def dataAtImmediate (s : State) (addr : Byte) : Byte := s.dataByte (eaImmediate addr)

/-- The byte of data memory at the address a register holds. -/
def dataAtRegister (s : State) (r : Reg) : Byte := s.dataByte (eaRegister s r)

/-- A jump target: the absolute instruction address `Addr8` (42_jumps.md R166). -/
def jumpTarget (addr : Byte) : Byte := addr

end Sys2Proof.Machine
end

