-- ==== Sys2Proof/Machine/Alu.lean ====
section
/-! DEFINITION. The ALU and the arithmetic / logic instructions (spec/40_alu.md R80 to R119). -/

namespace Sys2Proof.Machine

/-! ### The ALU function (R80) -/

/-- What the ALU answers: the result byte and the four flags. -/
structure AluOut where
  result : Byte
  flags : Flags
  deriving DecidableEq, Repr

/-- A result with its C and V; Z and S come from the result (R80). -/
def aluOut (r : Byte) (c v : Bool) : AluOut := ⟨r, flagsOf r c v⟩

/-- `ALU(funct, a, b, cin)` (R80). `undefV` is the value that V takes where the spec leaves it
undefined (SLL, SRL, SRA, ROL: U1, log entry 4). MOVE and the logic functions clear C and V
(decision D8: log entry 11); MOVE, NOT, SRL, SRA, ROL and SLL ignore `b` (R68; SLL by decision D9:
log entry 12); ROL rotates within the byte (R97, decision D10: log entry 13). -/
def alu (f : Funct) (a b : Byte) (cin undefV : Bool) : AluOut :=
  match f with
  | .move => aluOut a false false
  | .add => aluOut (a + b) (carryOfAdd a b false) (overflowOfAdd a b false)
  | .sub => aluOut (a - b) (borrowOfSub a b false) (overflowOfSub a b false)
  | .addc => aluOut (a + b + carryByte cin) (carryOfAdd a b cin) (overflowOfAdd a b cin)
  | .subb => aluOut (a - b - carryByte cin) (borrowOfSub a b cin) (overflowOfSub a b cin)
  | .and => aluOut (a &&& b) false false
  | .or => aluOut (a ||| b) false false
  | .not => aluOut (~~~a) false false
  | .xor => aluOut (a ^^^ b) false false
  | .nand => aluOut (~~~(a &&& b)) false false
  | .nor => aluOut (~~~(a ||| b)) false false
  | .xnor => aluOut (~~~(a ^^^ b)) false false
  | .sll => aluOut (a <<< 1) (shiftedOut a) undefV
  | .srl => aluOut (a >>> 1) false undefV
  | .sra => aluOut (a.sshiftRight 1) false undefV
  | .rol => aluOut (a.rotateLeft 1) (shiftedOut a) undefV

/-- The functions that leave V undefined (R80, U1). -/
def leavesVUndefined : Funct → Bool
  | .sll | .srl | .sra | .rol => true
  | _ => false

/-! ### The shared effect of an ALU instruction (R81, R100) -/

/-- The ALU at work in a state: the carry-in is C before the instruction (R81), and V, where it is
undefined, is the state's next free value. -/
def aluIn (s : State) (f : Funct) (a b : Byte) : AluOut :=
  alu f a b s.flags.c (Config.undefinedV s.draws)

/-- Write the four flags of an ALU operation; a free value that was used is counted. -/
def aluFlags (s : State) (f : Funct) (a b : Byte) : State :=
  if leavesVUndefined f then (s.setFlags (aluIn s f a b).flags).draw
  else s.setFlags (aluIn s f a b).flags

/-- An ALU operation with a destination: result to Rd, flags written, on to the next instruction
(R81). The operands are values read before anything is written. -/
def aluToReg (s : State) (f : Funct) (rd : Reg) (a b : Byte) : Result :=
  .next ((aluFlags s f a b).setReg rd (aluIn s f a b).result).advance

/-- A compare operation: the flags of the ALU operation and nothing else (R100). -/
def aluCompare (s : State) (f : Funct) (a b : Byte) : Result :=
  .next (aluFlags s f a b).advance

/-! ### ALU operations, opcode byte `0000DDAA` (R81)

A function of one operand is given Ra in both places; it looks at the first only. -/

/-- MOVE Rd, Ra (R82). -/
def execMove (rd ra : Reg) (s : State) : Result :=
  aluToReg s .move rd (regOperand s ra) (regOperand s ra)

/-- ADD Rd, Ra, Rb (R83). -/
def execAdd (rd ra rb : Reg) (s : State) : Result :=
  aluToReg s .add rd (regOperand s ra) (regOperand s rb)

/-- SUB Rd, Ra, Rb (R84). -/
def execSub (rd ra rb : Reg) (s : State) : Result :=
  aluToReg s .sub rd (regOperand s ra) (regOperand s rb)

/-- ADDC Rd, Ra, Rb (R85). -/
def execAddc (rd ra rb : Reg) (s : State) : Result :=
  aluToReg s .addc rd (regOperand s ra) (regOperand s rb)

/-- SUBB Rd, Ra, Rb (R86). -/
def execSubb (rd ra rb : Reg) (s : State) : Result :=
  aluToReg s .subb rd (regOperand s ra) (regOperand s rb)

/-- AND Rd, Ra, Rb (R87). -/
def execAnd (rd ra rb : Reg) (s : State) : Result :=
  aluToReg s .and rd (regOperand s ra) (regOperand s rb)

/-- OR Rd, Ra, Rb (R88). -/
def execOr (rd ra rb : Reg) (s : State) : Result :=
  aluToReg s .or rd (regOperand s ra) (regOperand s rb)

/-- NOT Rd, Ra (R89). -/
def execNot (rd ra : Reg) (s : State) : Result :=
  aluToReg s .not rd (regOperand s ra) (regOperand s ra)

/-- XOR Rd, Ra, Rb (R90). -/
def execXor (rd ra rb : Reg) (s : State) : Result :=
  aluToReg s .xor rd (regOperand s ra) (regOperand s rb)

/-- NAND Rd, Ra, Rb (R91). -/
def execNand (rd ra rb : Reg) (s : State) : Result :=
  aluToReg s .nand rd (regOperand s ra) (regOperand s rb)

/-- NOR Rd, Ra, Rb (R92). -/
def execNor (rd ra rb : Reg) (s : State) : Result :=
  aluToReg s .nor rd (regOperand s ra) (regOperand s rb)

/-- XNOR Rd, Ra, Rb (R93). -/
def execXnor (rd ra rb : Reg) (s : State) : Result :=
  aluToReg s .xnor rd (regOperand s ra) (regOperand s rb)

/-- SLL Rd, Ra (R94). -/
def execSll (rd ra : Reg) (s : State) : Result :=
  aluToReg s .sll rd (regOperand s ra) (regOperand s ra)

/-- SRL Rd, Ra (R95). -/
def execSrl (rd ra : Reg) (s : State) : Result :=
  aluToReg s .srl rd (regOperand s ra) (regOperand s ra)

/-- SRA Rd, Ra (R96). -/
def execSra (rd ra : Reg) (s : State) : Result :=
  aluToReg s .sra rd (regOperand s ra) (regOperand s ra)

/-- ROL Rd, Ra (R97). -/
def execRol (rd ra : Reg) (s : State) : Result :=
  aluToReg s .rol rd (regOperand s ra) (regOperand s ra)

/-! ### Immediate ALU instructions -/

/-- ADDI Rd, Ra, Imm8 (R98): C holds the carry, also when a negative immediate is meant. -/
def execAddi (rd ra : Reg) (imm : Byte) (s : State) : Result :=
  aluToReg s .add rd (regOperand s ra) (immOperand imm)

/-- ANDI Rd, Ra, Imm8 (R99). -/
def execAndi (rd ra : Reg) (imm : Byte) (s : State) : Result :=
  aluToReg s .and rd (regOperand s ra) (immOperand imm)

/-! ### Compare operations, opcode byte `001100AA` (R100) -/

/-- CMP-MOVE Ra (R101). -/
def execCmpMove (ra : Reg) (s : State) : Result :=
  aluCompare s .move (regOperand s ra) (regOperand s ra)

/-- CMP-ADD Ra, Rb (R102). -/
def execCmpAdd (ra rb : Reg) (s : State) : Result :=
  aluCompare s .add (regOperand s ra) (regOperand s rb)

/-- CMP-SUB Ra, Rb (R103). -/
def execCmpSub (ra rb : Reg) (s : State) : Result :=
  aluCompare s .sub (regOperand s ra) (regOperand s rb)

/-- CMP-ADDC Ra, Rb (R104). -/
def execCmpAddc (ra rb : Reg) (s : State) : Result :=
  aluCompare s .addc (regOperand s ra) (regOperand s rb)

/-- CMP-SUBB Ra, Rb (R105). -/
def execCmpSubb (ra rb : Reg) (s : State) : Result :=
  aluCompare s .subb (regOperand s ra) (regOperand s rb)

/-- CMP-AND Ra, Rb (R106). -/
def execCmpAnd (ra rb : Reg) (s : State) : Result :=
  aluCompare s .and (regOperand s ra) (regOperand s rb)

/-- CMP-OR Ra, Rb (R107). -/
def execCmpOr (ra rb : Reg) (s : State) : Result :=
  aluCompare s .or (regOperand s ra) (regOperand s rb)

/-- CMP-NOT Ra (R108). -/
def execCmpNot (ra : Reg) (s : State) : Result :=
  aluCompare s .not (regOperand s ra) (regOperand s ra)

/-- CMP-XOR Ra, Rb (R109). -/
def execCmpXor (ra rb : Reg) (s : State) : Result :=
  aluCompare s .xor (regOperand s ra) (regOperand s rb)

/-- CMP-NAND Ra, Rb (R110). -/
def execCmpNand (ra rb : Reg) (s : State) : Result :=
  aluCompare s .nand (regOperand s ra) (regOperand s rb)

/-- CMP-NOR Ra, Rb (R111). -/
def execCmpNor (ra rb : Reg) (s : State) : Result :=
  aluCompare s .nor (regOperand s ra) (regOperand s rb)

/-- CMP-XNOR Ra, Rb (R112). -/
def execCmpXnor (ra rb : Reg) (s : State) : Result :=
  aluCompare s .xnor (regOperand s ra) (regOperand s rb)

/-- CMP-SLL Ra (R113). -/
def execCmpSll (ra : Reg) (s : State) : Result :=
  aluCompare s .sll (regOperand s ra) (regOperand s ra)

/-- CMP-SRL Ra (R114). -/
def execCmpSrl (ra : Reg) (s : State) : Result :=
  aluCompare s .srl (regOperand s ra) (regOperand s ra)

/-- CMP-SRA Ra (R115). -/
def execCmpSra (ra : Reg) (s : State) : Result :=
  aluCompare s .sra (regOperand s ra) (regOperand s ra)

/-- CMP-ROL Ra (R116). -/
def execCmpRol (ra : Reg) (s : State) : Result :=
  aluCompare s .rol (regOperand s ra) (regOperand s ra)

/-- CMP-SUBI Ra, Imm8 (R117): register minus immediate. -/
def execCmpSubi (ra : Reg) (imm : Byte) (s : State) : Result :=
  aluCompare s .sub (regOperand s ra) (immOperand imm)

/-- CMP-ANDI Ra, Imm8 (R118). -/
def execCmpAndi (ra : Reg) (imm : Byte) (s : State) : Result :=
  aluCompare s .and (regOperand s ra) (immOperand imm)

/-- CLF: all four flags 0 (R119). -/
def execClf (s : State) : Result :=
  .next (s.setFlags flagsClear).advance

end Sys2Proof.Machine
end

