-- ==== Sys2Proof/Machine/DataMovement.lean ====
section
/-! DEFINITION. The data movement instructions (spec/41_data_movement.md R130 to R139). None reads
or writes a flag (R139; decision D14: log entry 16). -/

namespace Sys2Proof.Machine

/-- LI Rd, Imm8 (R130). -/
def execLi (rd : Reg) (imm : Byte) (s : State) : Result :=
  .next (s.setReg rd (immOperand imm)).advance

/-- ST-Addr Ra, Addr8 (R131): RAM[Addr8] becomes Ra. -/
def execStAddr (ra : Reg) (addr : Byte) (s : State) : Result :=
  .next (s.storeData (eaImmediate addr) (regOperand s ra)).advance

/-- ST-Reg Ra, Rb (R132): RAM[Rb] becomes Ra. -/
def execStReg (ra rb : Reg) (s : State) : Result :=
  .next (s.storeData (eaRegister s rb) (regOperand s ra)).advance

/-- PUSH Ra (R133). -/
def execPush (ra : Reg) (s : State) : Result :=
  .next (s.push (regOperand s ra)).advance

/-- LD-Addr Rd, Addr8 (R134). -/
def execLdAddr (rd : Reg) (addr : Byte) (s : State) : Result :=
  .next (s.setReg rd (dataAtImmediate s addr)).advance

/-- LD-Reg Rd, Ra (R135): the address is read before Rd is written. -/
def execLdReg (rd ra : Reg) (s : State) : Result :=
  .next (s.setReg rd (dataAtRegister s ra)).advance

/-- POP Rd (R136). -/
def execPop (rd : Reg) (s : State) : Result :=
  .next (s.dropTop.setReg rd s.top).advance

/-- SWAP Rd, Ra (R137): the top of the stack becomes the old Ra and Rd the old top; SP is
unchanged. -/
def execSwap (rd ra : Reg) (s : State) : Result :=
  .next ((s.setTop (regOperand s ra)).setReg rd s.top).advance

end Sys2Proof.Machine
end

