-- ==== Sys2Proof/Machine/Jumps.lean ====
section
/-! DEFINITION. The jump instructions (spec/42_jumps.md R150 to R167). Every target is an absolute
instruction address and every byte is a valid one (R166); no jump writes a flag. -/

namespace Sys2Proof.Machine

/-- J Addr8 (R150). -/
def execJ (addr : Byte) (s : State) : Result :=
  .next (s.setPc (jumpTarget addr))

/-- JR Ra (R151). -/
def execJr (ra : Reg) (s : State) : Result :=
  .next (s.setPc (regOperand s ra))

/-- JAL Addr8 (R152): the address of the next instruction is pushed, modulo 256 (R17). -/
def execJal (addr : Byte) (s : State) : Result :=
  .next ((s.push s.nextPc).setPc (jumpTarget addr))

/-- RET (R153): the top of the stack is popped into PC. -/
def execRet (s : State) : Result :=
  .next (s.dropTop.setPc s.top)

/-- A conditional jump: to the target if the condition holds of the flags, else to the next
instruction (42_jumps.md section 3). -/
def jumpOn (cond : Bool) (addr : Byte) (s : State) : Result :=
  .next (s.jumpIf cond (jumpTarget addr))

/-- JZ Addr8, taken if Z (R154). -/
def execJz (addr : Byte) (s : State) : Result := jumpOn (condZ s.flags) addr s

/-- JNZ Addr8, taken if not Z (R155). -/
def execJnz (addr : Byte) (s : State) : Result := jumpOn (condNZ s.flags) addr s

/-- JC Addr8, taken if C (R156). -/
def execJc (addr : Byte) (s : State) : Result := jumpOn (condC s.flags) addr s

/-- JNC Addr8, taken if not C (R157). -/
def execJnc (addr : Byte) (s : State) : Result := jumpOn (condNC s.flags) addr s

/-- JV Addr8, taken if V (R158). -/
def execJv (addr : Byte) (s : State) : Result := jumpOn (condV s.flags) addr s

/-- JNV Addr8, taken if not V (R159). -/
def execJnv (addr : Byte) (s : State) : Result := jumpOn (condNV s.flags) addr s

/-- JN Addr8, taken if S (R160). -/
def execJn (addr : Byte) (s : State) : Result := jumpOn (condN s.flags) addr s

/-- JP Addr8, taken if not S (R161). -/
def execJp (addr : Byte) (s : State) : Result := jumpOn (condP s.flags) addr s

/-- JSP Addr8, taken if neither S nor Z (R162). -/
def execJsp (addr : Byte) (s : State) : Result := jumpOn (condSP s.flags) addr s

/-- JLEU Addr8, taken if C or Z (R163). -/
def execJleu (addr : Byte) (s : State) : Result := jumpOn (condLEU s.flags) addr s

/-- JLT Addr8, taken if V xor S (R164). -/
def execJlt (addr : Byte) (s : State) : Result := jumpOn (condLT s.flags) addr s

/-- JLE Addr8, taken if (V xor S) or Z (R165). -/
def execJle (addr : Byte) (s : State) : Result := jumpOn (condLE s.flags) addr s

end Sys2Proof.Machine
end

