-- ==== Sys2Proof/Machine/Output.lean ====
section
/-! DEFINITION. The output and miscellaneous instructions (spec/43_output_misc.md R180 to R188). -/

namespace Sys2Proof.Machine

/-- LCD-Com Imm8: a command byte to the LCD module (R180). -/
def execLcdCom (imm : Byte) (s : State) : Result :=
  .next (s.lcdSend .command (immOperand imm)).advance

/-- LCD-Imm Imm8: an immediate character (R181). -/
def execLcdImm (imm : Byte) (s : State) : Result :=
  .next (s.lcdSend .data (immOperand imm)).advance

/-- LCD-Reg Ra: the character in Ra (R182). -/
def execLcdReg (ra : Reg) (s : State) : Result :=
  .next (s.lcdSend .data (regOperand s ra)).advance

/-- LCD-Addr Addr8: the character in data memory (R183). -/
def execLcdAddr (addr : Byte) (s : State) : Result :=
  .next (s.lcdSend .data (dataAtImmediate s addr)).advance

/-- DEC-Reg Ra: OUT becomes Ra (R184). -/
def execDecReg (ra : Reg) (s : State) : Result :=
  .next (s.setOut (regOperand s ra)).advance

/-- DEC-Addr Addr8: OUT becomes the byte of data memory; nothing goes to the LCD (R185). -/
def execDecAddr (addr : Byte) (s : State) : Result :=
  .next (s.setOut (dataAtImmediate s addr)).advance

/-- HLT: the halted mark is set and everything else keeps its value, but for PC, whose value after
HLT the spec does not give: a free value (R186, U7; log entry 5). -/
def execHlt (s : State) : Result :=
  .next ((s.halt.setPc (Config.pcAfterHlt s.draws)).draw)

/-- NOP: only on to the next instruction (R187); its 7 clock cycles are timing (R254). -/
def execNop (s : State) : Result :=
  .next s.advance

end Sys2Proof.Machine
end

