-- ==== Sys2Proof/Machine/Dispatch.lean ====
section
/-! DEFINITION. One arm per instruction, each one call of its meaning. -/

namespace Sys2Proof.Machine

/-- The effect of one instruction at `s.pc`, the frame's advance of PC included (00_scope.md R11). -/
def exec (i : Instr) (s : State) : Host.Outcome State Fault Refusal :=
  match i with
  | .move rd ra => Sys2Proof.Machine.execMove rd ra s
  | .add rd ra rb => Sys2Proof.Machine.execAdd rd ra rb s
  | .sub rd ra rb => Sys2Proof.Machine.execSub rd ra rb s
  | .addc rd ra rb => Sys2Proof.Machine.execAddc rd ra rb s
  | .subb rd ra rb => Sys2Proof.Machine.execSubb rd ra rb s
  | .and rd ra rb => Sys2Proof.Machine.execAnd rd ra rb s
  | .or rd ra rb => Sys2Proof.Machine.execOr rd ra rb s
  | .not rd ra => Sys2Proof.Machine.execNot rd ra s
  | .xor rd ra rb => Sys2Proof.Machine.execXor rd ra rb s
  | .nand rd ra rb => Sys2Proof.Machine.execNand rd ra rb s
  | .nor rd ra rb => Sys2Proof.Machine.execNor rd ra rb s
  | .xnor rd ra rb => Sys2Proof.Machine.execXnor rd ra rb s
  | .sll rd ra => Sys2Proof.Machine.execSll rd ra s
  | .srl rd ra => Sys2Proof.Machine.execSrl rd ra s
  | .sra rd ra => Sys2Proof.Machine.execSra rd ra s
  | .rol rd ra => Sys2Proof.Machine.execRol rd ra s
  | .addi rd ra imm => Sys2Proof.Machine.execAddi rd ra imm s
  | .andi rd ra imm => Sys2Proof.Machine.execAndi rd ra imm s
  | .cmpMove ra => Sys2Proof.Machine.execCmpMove ra s
  | .cmpAdd ra rb => Sys2Proof.Machine.execCmpAdd ra rb s
  | .cmpSub ra rb => Sys2Proof.Machine.execCmpSub ra rb s
  | .cmpAddc ra rb => Sys2Proof.Machine.execCmpAddc ra rb s
  | .cmpSubb ra rb => Sys2Proof.Machine.execCmpSubb ra rb s
  | .cmpAnd ra rb => Sys2Proof.Machine.execCmpAnd ra rb s
  | .cmpOr ra rb => Sys2Proof.Machine.execCmpOr ra rb s
  | .cmpNot ra => Sys2Proof.Machine.execCmpNot ra s
  | .cmpXor ra rb => Sys2Proof.Machine.execCmpXor ra rb s
  | .cmpNand ra rb => Sys2Proof.Machine.execCmpNand ra rb s
  | .cmpNor ra rb => Sys2Proof.Machine.execCmpNor ra rb s
  | .cmpXnor ra rb => Sys2Proof.Machine.execCmpXnor ra rb s
  | .cmpSll ra => Sys2Proof.Machine.execCmpSll ra s
  | .cmpSrl ra => Sys2Proof.Machine.execCmpSrl ra s
  | .cmpSra ra => Sys2Proof.Machine.execCmpSra ra s
  | .cmpRol ra => Sys2Proof.Machine.execCmpRol ra s
  | .cmpSubi ra imm => Sys2Proof.Machine.execCmpSubi ra imm s
  | .cmpAndi ra imm => Sys2Proof.Machine.execCmpAndi ra imm s
  | .clf => Sys2Proof.Machine.execClf s
  | .li rd imm => Sys2Proof.Machine.execLi rd imm s
  | .stAddr ra addr => Sys2Proof.Machine.execStAddr ra addr s
  | .stReg ra rb => Sys2Proof.Machine.execStReg ra rb s
  | .push ra => Sys2Proof.Machine.execPush ra s
  | .ldAddr rd addr => Sys2Proof.Machine.execLdAddr rd addr s
  | .ldReg rd ra => Sys2Proof.Machine.execLdReg rd ra s
  | .pop rd => Sys2Proof.Machine.execPop rd s
  | .swap rd ra => Sys2Proof.Machine.execSwap rd ra s
  | .j addr => Sys2Proof.Machine.execJ addr s
  | .jr ra => Sys2Proof.Machine.execJr ra s
  | .jal addr => Sys2Proof.Machine.execJal addr s
  | .ret => Sys2Proof.Machine.execRet s
  | .jz addr => Sys2Proof.Machine.execJz addr s
  | .jnz addr => Sys2Proof.Machine.execJnz addr s
  | .jc addr => Sys2Proof.Machine.execJc addr s
  | .jnc addr => Sys2Proof.Machine.execJnc addr s
  | .jv addr => Sys2Proof.Machine.execJv addr s
  | .jnv addr => Sys2Proof.Machine.execJnv addr s
  | .jn addr => Sys2Proof.Machine.execJn addr s
  | .jp addr => Sys2Proof.Machine.execJp addr s
  | .jsp addr => Sys2Proof.Machine.execJsp addr s
  | .jleu addr => Sys2Proof.Machine.execJleu addr s
  | .jlt addr => Sys2Proof.Machine.execJlt addr s
  | .jle addr => Sys2Proof.Machine.execJle addr s
  | .lcdCom imm => Sys2Proof.Machine.execLcdCom imm s
  | .lcdImm imm => Sys2Proof.Machine.execLcdImm imm s
  | .lcdReg ra => Sys2Proof.Machine.execLcdReg ra s
  | .lcdAddr addr => Sys2Proof.Machine.execLcdAddr addr s
  | .decReg ra => Sys2Proof.Machine.execDecReg ra s
  | .decAddr addr => Sys2Proof.Machine.execDecAddr addr s
  | .hlt => Sys2Proof.Machine.execHlt s
  | .nop => Sys2Proof.Machine.execNop s

end Sys2Proof.Machine
end

