-- ==== Sys2Proof/Machine/Step.lean ====
section
/-! DEFINITION. One step of the machine (00_scope.md R11), and the placing of one instruction where
the next step fetches it. -/

namespace Sys2Proof.Machine

/-- A step (R11): none on a halted machine, else fetch at PC from both program banks, decode, and
execute; PC's advance is part of the instruction's meaning. -/
def step (s : State) : Host.Outcome State Fault Refusal :=
  if s.halted then .fault .halted
  else
    match s.fetch with
    | none => .fault (.fetchUndefined s.pc)
    | some (op, arg) =>
      match decode op arg with
      | .instr i => exec i s
      | .reserved op arg => .refused (.reservedEncoding op arg)

/-- The state with the instruction word numbered `w` in both program banks at PC: the host's load of
one instruction (70_reset_and_hazards.md R258; log entry 7). -/
def State.withFetchWord (s : State) (nbits w : Nat) : State :=
  s.placeWord s.pc (tableBytes nbits w)

end Sys2Proof.Machine
end

