-- ==== Sys2Proof/Machine/Macros.lean ====
section
/-! DEFINITION. The assembler macros "an assembler should provide" and what each expands to
(spec/44_abi_macros.md R208 to R221). The hardware knows none of them; they are the words in which
CESCA programs are written. -/

namespace Sys2Proof.Machine

/-- The ten orders that the compare-and-jump macros test (R220). -/
inductive Relation where
  | eq | ne | ltu | leu | gtu | geu | lt | le | gt | ge
  deriving DecidableEq, Repr

/-- The macros (R208 to R220). -/
inductive AsmMacro where
  /-- CMP Ra, Rb (R208) -/
  | cmp (ra rb : Reg)
  /-- CMP Ra, Imm8 (R209) -/
  | cmpImm (ra : Reg) (imm : Byte)
  /-- TEST Ra (R210) -/
  | test (ra : Reg)
  /-- INCR Ra (R211) -/
  | incr (ra : Reg)
  /-- DECR Ra (R212) -/
  | decr (ra : Reg)
  /-- SLLC Rd, Ra (R213) -/
  | sllc (rd ra : Reg)
  /-- SWAP Ra (R214) -/
  | swapTop (ra : Reg)
  /-- LCD-Init (R215) -/
  | lcdInit
  /-- LCD-Clr (R216) -/
  | lcdClr
  /-- JEQ addr (R217) -/
  | jeq (addr : Byte)
  /-- JNE addr (R218) -/
  | jne (addr : Byte)
  /-- JLTU addr (R219) -/
  | jltu (addr : Byte)
  /-- J<relation> Ra, Rb, addr (R220) -/
  | jumpReg (c : Relation) (ra rb : Reg) (addr : Byte)
  /-- J<relation> Ra, Imm8, addr (R220) -/
  | jumpImm (c : Relation) (ra : Reg) (imm addr : Byte)
  deriving DecidableEq, Repr

/-- What a relation says of two bytes: unsigned order, or signed order (R220). -/
def Relation.holds (c : Relation) (a b : Byte) : Bool :=
  match c with
  | .eq => decide (a = b)
  | .ne => decide (a ≠ b)
  | .ltu => decide (unsigned a < unsigned b)
  | .leu => decide (unsigned a ≤ unsigned b)
  | .gtu => decide (unsigned b < unsigned a)
  | .geu => decide (unsigned b ≤ unsigned a)
  | .lt => decide (signed a < signed b)
  | .le => decide (signed a ≤ signed b)
  | .gt => decide (signed b < signed a)
  | .ge => decide (signed b ≤ signed a)

/-- The operand `(PC+2)` of a jump at `jumpAt`: the absolute address that skips exactly one
instruction (R221). -/
def skipOne (jumpAt : Byte) : Byte := jumpAt + 2

/-- The register form of a compare-and-jump macro (R220); JGTU, JGT and JGE swap the compare. -/
def expandJumpReg (c : Relation) (ra rb : Reg) (addr : Byte) : List Instr :=
  match c with
  | .eq => [.cmpSub ra rb, .jz addr]
  | .ne => [.cmpSub ra rb, .jnz addr]
  | .ltu => [.cmpSub ra rb, .jc addr]
  | .leu => [.cmpSub ra rb, .jleu addr]
  | .gtu => [.cmpSub rb ra, .jc addr]
  | .geu => [.cmpSub ra rb, .jnc addr]
  | .lt => [.cmpSub ra rb, .jlt addr]
  | .le => [.cmpSub ra rb, .jle addr]
  | .gt => [.cmpSub rb ra, .jlt addr]
  | .ge => [.cmpSub rb ra, .jle addr]

/-- The immediate form of a compare-and-jump macro placed at `base` (R220, R221); JGT is the spec's
correction (90_conflicts.md C11). -/
def expandJumpImm (base : Byte) (c : Relation) (ra : Reg) (imm addr : Byte) : List Instr :=
  match c with
  | .eq => [.cmpSubi ra imm, .jz addr]
  | .ne => [.cmpSubi ra imm, .jnz addr]
  | .ltu => [.cmpSubi ra imm, .jc addr]
  | .leu => [.cmpSubi ra imm, .jleu addr]
  | .gtu => [.cmpSubi ra imm, .jleu (skipOne (base + 1)), .j addr]
  | .geu => [.cmpSubi ra imm, .jnc addr]
  | .lt => [.cmpSubi ra imm, .jlt addr]
  | .le => [.cmpSubi ra imm, .jle addr]
  | .gt => [.cmpSubi ra imm, .jle (skipOne (base + 1)), .j addr]
  | .ge => [.cmpSubi ra imm, .jlt (skipOne (base + 1)), .j addr]

/-- The instructions that a macro placed at `base` stands for (R208 to R221). -/
def AsmMacro.expand (base : Byte) : AsmMacro → List Instr
  | .cmp ra rb => [.cmpSub ra rb]
  | .cmpImm ra imm => [.cmpSubi ra imm]
  | .test ra => [.cmpMove ra]
  | .incr ra => [.addi ra ra 0x01]
  | .decr ra => [.addi ra ra 0xFF]
  | .sllc rd ra => [.addc rd ra ra]
  | .swapTop ra => [.swap ra ra]
  | .lcdInit => [.lcdCom 0x38, .lcdCom 0x0E, .lcdCom 0x06]
  | .lcdClr => [.lcdCom 0x01]
  | .jeq addr => [.jz addr]
  | .jne addr => [.jnz addr]
  | .jltu addr => [.jc addr]
  | .jumpReg c ra rb addr => expandJumpReg c ra rb addr
  | .jumpImm c ra imm addr => expandJumpImm base c ra imm addr

end Sys2Proof.Machine
end

