-- ==== Sys2Proof/Safety.lean ====
section
/-! DEFINITION. The terms in which claims about runs are made: reaching a state, the end of a run
(70_reset_and_hazards.md R256), a run without a stop of the model, and the ABI's call contract
(44_abi_macros.md R200 to R206). -/

namespace Sys2Proof.Safety

open Sys2Proof.Machine

/-- `n` steps lead from `s` to `t`, with no fault and no refusal on the way. -/
def Reaches (n : Nat) (s t : State) : Prop :=
  Host.Core.run Sys2Proof.core n s = Host.Outcome.next t

/-- A run from `s` ends, by HLT, in `t` (R256). -/
def EndsIn (s t : State) : Prop :=
  ∃ n, Reaches n s t ∧ t.halted = true

/-- For `n` steps the model stops for no reason but the halt itself (R256, R258). -/
def SafeFor (n : Nat) (s : State) : Prop :=
  ∀ k t, k ≤ n → Reaches k s t → t.halted = true ∨ ∃ u, step t = .next u

/-- A data byte that the program has written: reading it gives no unspecified value (10_state.md
R32). -/
def DataWritten (s : State) (a : Byte) : Prop :=
  (s.data.read a.toNat).isSome = true

/-- The top of the stack has been pushed: POP, RET and SWAP read no unspecified value (10_state.md
R32, 93_implementation_defined.md U4). -/
def TopWritten (s : State) : Prop :=
  (s.stack.read s.topAddr.toNat).isSome = true

/-- The stack holds `vs`, the most recently pushed byte first (10_state.md R19). -/
def StackHolds (s : State) (vs : List Byte) : Prop :=
  ∀ k (h : k < vs.length), s.stackByte (s.sp + 1 + BitVec.ofNat 8 k) = vs[k]

/-- The ABI's contract of one call: from the state before the JAL to the state after the RET, the
return is to the instruction after the JAL (R205), the stack depth is as it was (R205), and the
protected registers R2 and R3 are preserved (R202). R0 holds the result, R1 and the flags are
volatile (R201 to R203). -/
def CallKept (before after : State) : Prop :=
  after.pc = before.nextPc ∧ after.sp = before.sp ∧ after.r2 = before.r2 ∧ after.r3 = before.r3

end Sys2Proof.Safety
end

