-- ==== Sys2Proof/Certificates/Slice0/Obligations.lean ====
section
/-! DEFINITION. The statements for the provers. Every statement holds for every state, so for every
content that registers, flags and memory may have at launch (10_state.md R32): none rests on a
reset value the model chose, and none on the value of a free constant of Config. -/

namespace Sys2Proof.Claims

open Sys2Proof.Machine

/-! ### Frames -/

/-- Every byte of data memory reads as before. -/
def SameData (s t : State) : Prop := ∀ a, t.dataByte a = s.dataByte a

/-- Every byte of the stack bank reads as before. -/
def SameStack (s t : State) : Prop := ∀ a, t.stackByte a = s.stackByte a

/-- Both program banks read as before at every address. -/
def SameProgram (s t : State) : Prop :=
  ∀ a : Byte, t.progHigh.read a.toNat = s.progHigh.read a.toNat ∧
    t.progLow.read a.toNat = s.progLow.read a.toNat

/-- Every byte of all four banks reads as before. -/
def SameMemory (s t : State) : Prop := SameData s t ∧ SameStack s t ∧ SameProgram s t

/-- Every data byte but the one at `a` reads as before, and every byte of the other banks. -/
def SameMemoryButData (a : Byte) (s t : State) : Prop :=
  (∀ q, q ≠ a → t.dataByte q = s.dataByte q) ∧ SameStack s t ∧ SameProgram s t

/-- Every stack byte but the one at `a` reads as before, and every byte of the other banks. -/
def SameMemoryButStack (a : Byte) (s t : State) : Prop :=
  (∀ q, q ≠ a → t.stackByte q = s.stackByte q) ∧ SameData s t ∧ SameProgram s t

/-- Every general register keeps its value. -/
def SameRegs (s t : State) : Prop := ∀ q, t.reg q = s.reg q

/-- Every general register but `rd` keeps its value. -/
def SameRegsBut (rd : Reg) (s t : State) : Prop := ∀ q, q ≠ rd → t.reg q = s.reg q

/-- OUT, the LCD trace and the halted mark are as before. -/
def SameDevices (s t : State) : Prop := t.out = s.out ∧ t.lcd = s.lcd ∧ t.halted = s.halted

/-- Nothing but Rd, the flags and PC changes, and PC goes to the next instruction. -/
def OnlyRegAndFlags (rd : Reg) (s t : State) : Prop :=
  SameRegsBut rd s t ∧ t.sp = s.sp ∧ SameMemory s t ∧ SameDevices s t ∧ t.pc = s.nextPc

/-- Nothing but the flags and PC changes, and PC goes to the next instruction. -/
def OnlyFlags (s t : State) : Prop :=
  SameRegs s t ∧ t.sp = s.sp ∧ SameMemory s t ∧ SameDevices s t ∧ t.pc = s.nextPc

/-- Nothing but PC changes. -/
def OnlyPc (s t : State) : Prop :=
  SameRegs s t ∧ t.flags = s.flags ∧ t.sp = s.sp ∧ SameMemory s t ∧ SameDevices s t

/-! ### Flags -/

/-- Z says that the byte is 0x00 and S is its bit 7 (40_alu.md R80). -/
def ZeroSignOf (f : Flags) (r : Byte) : Prop :=
  (f.z = true ↔ r = 0x00) ∧ f.s = r.getLsbD 7

/-- An exact result outside -128..127. -/
def OutsideByte (x : Int) : Prop := x < -128 ∨ 127 < x

/-! ### Which instructions do what (10_state.md R13, R21, R22, 20_memory.md R41) -/

/-- The general register an instruction writes (R13). -/
def destReg : Instr → Option Reg
  | .move rd _ | .not rd _ | .sll rd _ | .srl rd _ | .sra rd _ | .rol rd _ => some rd
  | .add rd _ _ | .sub rd _ _ | .addc rd _ _ | .subb rd _ _ | .and rd _ _ | .or rd _ _ => some rd
  | .xor rd _ _ | .nand rd _ _ | .nor rd _ _ | .xnor rd _ _ => some rd
  | .addi rd _ _ | .andi rd _ _ => some rd
  | .li rd _ | .ldAddr rd _ | .ldReg rd _ | .pop rd | .swap rd _ => some rd
  | _ => none

/-- The instructions with opcode 0000, 0001, 0010 or 0011: they write the flags (R21). -/
def writesFlags : Instr → Bool
  | .move _ _ | .not _ _ | .sll _ _ | .srl _ _ | .sra _ _ | .rol _ _ => true
  | .add _ _ _ | .sub _ _ _ | .addc _ _ _ | .subb _ _ _ | .and _ _ _ | .or _ _ _ => true
  | .xor _ _ _ | .nand _ _ _ | .nor _ _ _ | .xnor _ _ _ => true
  | .addi _ _ _ | .andi _ _ _ | .cmpSubi _ _ | .cmpAndi _ _ | .clf => true
  | .cmpMove _ | .cmpNot _ | .cmpSll _ | .cmpSrl _ | .cmpSra _ | .cmpRol _ => true
  | .cmpAdd _ _ | .cmpSub _ _ | .cmpAddc _ _ | .cmpSubb _ _ | .cmpAnd _ _ | .cmpOr _ _ => true
  | .cmpXor _ _ | .cmpNand _ _ | .cmpNor _ _ | .cmpXnor _ _ => true
  | _ => false

/-- Z is read by JZ, JNZ, JSP, JLEU, JLE (R22). -/
def readsZ : Instr → Bool
  | .jz _ | .jnz _ | .jsp _ | .jleu _ | .jle _ => true
  | _ => false

/-- C is read by ADDC, SUBB, CMP-ADDC, CMP-SUBB, JC, JNC, JLEU (R22). -/
def readsC : Instr → Bool
  | .addc _ _ _ | .subb _ _ _ | .cmpAddc _ _ | .cmpSubb _ _ | .jc _ | .jnc _ | .jleu _ => true
  | _ => false

/-- V is read by JV, JNV, JLT, JLE (R22). -/
def readsV : Instr → Bool
  | .jv _ | .jnv _ | .jlt _ | .jle _ => true
  | _ => false

/-- S is read by JN, JP, JSP, JLT, JLE (R22). -/
def readsS : Instr → Bool
  | .jn _ | .jp _ | .jsp _ | .jlt _ | .jle _ => true
  | _ => false

/-- The instructions after which V is undefined (R80, U1). -/
def undefinesV : Instr → Bool
  | .sll _ _ | .srl _ _ | .sra _ _ | .rol _ _ => true
  | .cmpSll _ | .cmpSrl _ | .cmpSra _ | .cmpRol _ => true
  | _ => false

/-- Data memory is written by ST-Addr, ST-Reg (R41). -/
def writesData : Instr → Bool
  | .stAddr _ _ | .stReg _ _ => true
  | _ => false

/-- Data memory is read by LD-Addr, LD-Reg, LCD-Addr, DEC-Addr (R41). -/
def readsData : Instr → Bool
  | .ldAddr _ _ | .ldReg _ _ | .lcdAddr _ | .decAddr _ => true
  | _ => false

/-- The stack bank is written by PUSH, SWAP, JAL (R41). -/
def writesStack : Instr → Bool
  | .push _ | .swap _ _ | .jal _ => true
  | _ => false

/-- The stack bank is read by POP, SWAP, RET (R41). -/
def readsStack : Instr → Bool
  | .pop _ | .swap _ _ | .ret => true
  | _ => false

/-- SP is moved by PUSH, POP, JAL, RET (R13). -/
def movesSp : Instr → Bool
  | .push _ | .pop _ | .jal _ | .ret => true
  | _ => false

/-- OUT is written by DEC-Reg, DEC-Addr (R13). -/
def writesOut : Instr → Bool
  | .decReg _ | .decAddr _ => true
  | _ => false

/-- The LCD is sent a byte by LCD-Com, LCD-Imm, LCD-Reg, LCD-Addr (R13). -/
def sendsLcd : Instr → Bool
  | .lcdCom _ | .lcdImm _ | .lcdReg _ | .lcdAddr _ => true
  | _ => false

/-- The sixteen jumps, which write PC themselves (60_exceptions.md R231). -/
def isJump : Instr → Bool
  | .j _ | .jr _ | .jal _ | .ret | .jz _ | .jnz _ | .jc _ | .jnc _ => true
  | .jv _ | .jnv _ | .jn _ | .jp _ | .jsp _ | .jleu _ | .jlt _ | .jle _ => true
  | _ => false

/-- Two outcomes of `i` are equal but for what is drawn: the counter of draws, V where `i` leaves it
undefined (93_implementation_defined.md U1, log entry 4), and PC after HLT (U7, log entry 5). -/
def SameButDrawn (i : Instr) (t u : State) : Prop :=
  { u with draws := t.draws, flags := { u.flags with v := t.flags.v }, pc := t.pc } = t ∧
  (undefinesV i = false → u.flags.v = t.flags.v) ∧
  (i ≠ .hlt → u.pc = t.pc)

/-- Two outcomes of `i` have the same flags, V only where `i` does not leave it undefined (U1). -/
def SameFlagsButDrawn (i : Instr) (f g : Flags) : Prop :=
  f.z = g.z ∧ f.c = g.c ∧ f.s = g.s ∧ (undefinesV i = false → f.v = g.v)

/-- The address of data memory that an instruction stores to (41_data_movement.md R131, R132). -/
def dataStoreAddr : Instr → State → Option Byte
  | .stAddr _ addr, _ => some (eaImmediate addr)
  | .stReg _ rb, s => some (eaRegister s rb)
  | _, _ => none

/-- The byte that an instruction stores to data memory (R131, R132). -/
def dataStoreByte : Instr → State → Option Byte
  | .stAddr ra _, s => some (s.reg ra)
  | .stReg ra _, s => some (s.reg ra)
  | _, _ => none

/-- None of the instructions, executed one after the other from the state, stores to `a`. -/
def NeverStoresTo (a : Byte) : List Instr → State → Prop
  | [], _ => True
  | i :: is, s => dataStoreAddr i s ≠ some a ∧ ∀ t, exec i s = .next t → NeverStoresTo a is t

/-! ### Shapes of statements -/

/-- The effect of a two-operand logic function given bit by bit: result, Z and S from it, C and V
clear, and the frame. -/
def LogicEffect (i : Reg → Reg → Reg → Instr) (f : Bool → Bool → Bool) : Prop :=
  ∀ rd ra rb s, ∃ t, exec (i rd ra rb) s = .next t ∧
    (∀ k, k < 8 → (t.reg rd).getLsbD k = f ((s.reg ra).getLsbD k) ((s.reg rb).getLsbD k)) ∧
    ZeroSignOf t.flags (t.reg rd) ∧ t.flags.c = false ∧ t.flags.v = false ∧
    OnlyRegAndFlags rd s t

/-- One tagged byte is appended to the LCD trace, PC goes to the next instruction, and nothing else
changes. -/
def SendsToLcd (i : Instr) (kind : LcdKind) (value : State → Byte) : Prop :=
  ∀ s, ∃ t, exec i s = .next t ∧ t.lcd = s.lcd ++ [⟨kind, value s⟩] ∧
    SameRegs s t ∧ t.flags = s.flags ∧ t.sp = s.sp ∧ SameMemory s t ∧ t.out = s.out ∧
    t.halted = s.halted ∧ t.pc = s.nextPc

/-- A conditional jump goes to its target exactly when `P` holds of the state, and to the next
instruction otherwise; nothing but PC changes. -/
def JumpsWhen (j : Byte → Instr) (P : State → Prop) : Prop :=
  ∀ addr s, ∃ t, exec (j addr) s = .next t ∧ OnlyPc s t ∧
    (P s → t.pc = addr) ∧ (¬ P s → t.pc = s.nextPc)

/-- In the state `s` the conditional jump is taken exactly when `P` holds. -/
def TakenExactlyWhen (s : State) (j : Byte → Instr) (P : Prop) : Prop :=
  ∀ addr, ∃ t, exec (j addr) s = .next t ∧
    (P → t.pc = addr) ∧ (¬ P → t.pc = s.nextPc)

/-- The twelve conditional jumps in the state left by a subtraction of `b` from `a` (42_jumps.md R167;
JV and JNV by 40_alu.md R80). -/
def ConditionsAfterCompare (t : State) (a b : Byte) : Prop :=
  TakenExactlyWhen t .jz (a = b) ∧ TakenExactlyWhen t .jnz (a ≠ b) ∧
  TakenExactlyWhen t .jc (unsigned a < unsigned b) ∧
  TakenExactlyWhen t .jnc (unsigned b ≤ unsigned a) ∧
  TakenExactlyWhen t .jleu (unsigned a ≤ unsigned b) ∧
  TakenExactlyWhen t .jlt (signed a < signed b) ∧
  TakenExactlyWhen t .jle (signed a ≤ signed b) ∧
  TakenExactlyWhen t .jn ((a - b).getLsbD 7 = true) ∧
  TakenExactlyWhen t .jp ((a - b).getLsbD 7 = false) ∧
  TakenExactlyWhen t .jsp (0 < signed (a - b)) ∧
  TakenExactlyWhen t .jv (OutsideByte (signed a - signed b)) ∧
  TakenExactlyWhen t .jnv (¬ OutsideByte (signed a - signed b))

/-- Execute a list of instructions one after the other, by their meanings alone. -/
def execAll : List Instr → State → Result
  | [], s => .next s
  | i :: is, s =>
    match exec i s with
    | .next t => execAll is t
    | .fault r => .fault r
    | .refused r => .refused r

/-- Two bytes as one 16-bit number, `hi` the more significant (the program's choice, R44). -/
def pairNat (hi lo : Byte) : Nat := 256 * unsigned hi + unsigned lo

/-- Two bytes as one signed 16-bit number. -/
def pairInt (hi lo : Byte) : Int := 256 * signed hi + (unsigned lo : Int)

/-- The program banks hold the instructions `is` at `a`, `a + 1`, and so on, modulo 256. -/
def HoldsAt (s : State) (a : Byte) (is : List Instr) : Prop :=
  ∀ k (h : k < is.length), ∃ op arg,
    s.progHigh.read (a + BitVec.ofNat 8 k).toNat = some op ∧
    s.progLow.read (a + BitVec.ofNat 8 k).toNat = some arg ∧
    decode op arg = .instr is[k]

/-- A compare-and-jump macro placed at PC takes two or three steps, reaches `addr` exactly when `P`
holds and the instruction after its expansion otherwise, and changes nothing but flags and PC. -/
def MacroJumpsWhen (m : AsmMacro) (addr : Byte) (P : State → Prop) : Prop :=
  ∀ s, s.halted = false → HoldsAt s s.pc (m.expand s.pc) →
    ∃ n t, 2 ≤ n ∧ n ≤ 3 ∧ Safety.Reaches n s t ∧
      SameRegs s t ∧ t.sp = s.sp ∧ SameMemory s t ∧ SameDevices s t ∧
      (P s → t.pc = addr) ∧
      (¬ P s → t.pc = s.pc + BitVec.ofNat 8 (m.expand s.pc).length)

end Sys2Proof.Claims

open Sys2Proof Sys2Proof.Machine Sys2Proof.Claims

/-! ## Encoding -/

/-- The decoder reads an instruction exactly from the words that agree with its encoding on the bits
that the spec prints as fixed or as fields, whatever stands in the don't-care bits
(30_encoding.md R66, R68, R69). That X bits are ignored is the spec's decision D13 (log entry 15),
ST-Reg's Rb decision D11 (log entry 14), SLL's B decision D9 (log entry 12), the reserved words
decision D12 (log entry 8). -/
def Obligations.DecodeReadsExactlyTheCareBits : Prop :=
  ∀ op arg i, decode op arg = .instr i ↔
    (op &&& (careMask i).1, arg &&& (careMask i).2) = encode i

/-- Decoding the encoding of any instruction, every operand at every value, gives it back. -/
def Obligations.DecodeOfEncodeIsIdentity : Prop :=
  ∀ i, decode (encode i).1 (encode i).2 = .instr i

/-- Every word decodes to an instruction except the reserved group next to CLF, which is rejected by
name (30_encoding.md R69, R70; the rejection is the spec's decision D12, log entry 8). -/
def Obligations.OnlyReservedWordsAreRejected : Prop :=
  ∀ op arg,
    ((op.extractLsb' 2 6 = 0b001111#6 ∧ arg.extractLsb' 6 2 ≠ 0b01#2) →
      decode op arg = .reserved op arg) ∧
    (¬ (op.extractLsb' 2 6 = 0b001111#6 ∧ arg.extractLsb' 6 2 ≠ 0b01#2) →
      ∃ i, decode op arg = .instr i)

/-- The words that spec/95_test_vectors.md section 2.6 writes out decode as it says. -/
def Obligations.SpecWordsDecodeAsListed : Prop :=
  decode 0x0D 0x12 = .instr (.add .r3 .r1 .r2) ∧ decode 0x0D 0x1E = .instr (.add .r3 .r1 .r2) ∧
  decode 0x0D 0x03 = .instr (.move .r3 .r1) ∧ decode 0x31 0x22 = .instr (.cmpSub .r1 .r2) ∧
  decode 0x35 0x05 = .instr (.cmpSubi .r1 5) ∧ decode 0x39 0x05 = .instr (.cmpAndi .r1 5) ∧
  decode 0x3D 0x40 = .instr .clf ∧ decode 0x3D 0x00 = .reserved 0x3D 0x00 ∧
  decode 0x43 0x07 = .instr (.li .r0 7) ∧ decode 0x50 0x20 = .instr (.stAddr .r0 0x20) ∧
  decode 0x54 0x00 = .instr (.stReg .r0 .r0) ∧ decode 0x58 0x00 = .instr (.push .r0) ∧
  decode 0x5C 0x00 = .instr (.push .r0) ∧ decode 0xA3 0x10 = .instr (.j 0x10) ∧
  decode 0xAF 0xFF = .instr .ret ∧ decode 0xDF 0x10 = .instr (.jle 0x10) ∧
  decode 0xF3 0x00 = .instr (.decReg .r3)

/-! ## The step -/

/-- When the bytes at PC decode to an instruction and the machine is not halted, a step is exactly
that instruction's effect; PC's advance is part of it (00_scope.md R11). -/
def Obligations.StepRunsTheDecodedInstruction : Prop :=
  ∀ s op arg i, s.halted = false → s.progHigh.read s.pc.toNat = some op →
    s.progLow.read s.pc.toNat = some arg → decode op arg = .instr i → step s = exec i s

/-- HLT sets the halted mark, and a halted machine makes no further step (10_state.md R30). That the
model answers its stuck fault there is the model's own choice (log entry 6, DESIGN CHOICE). -/
def Obligations.HaltedMachineMakesNoStep : Prop :=
  (∀ s, ∃ t, exec .hlt s = .next t ∧ t.halted = true) ∧
  (∀ s, s.halted = true → step s = .fault .halted ∧ ∀ t, step s ≠ .next t)

/-- A fetch from an address that the program text does not define is a fault of the model
(30_encoding.md R74; the spec's decision D26, log entry 7). -/
def Obligations.UndefinedFetchFaults : Prop :=
  ∀ s, s.halted = false →
    (s.progHigh.read s.pc.toNat = none ∨ s.progLow.read s.pc.toNat = none) →
    step s = .fault (.fetchUndefined s.pc)

/-- A reserved word at PC is refused by name (30_encoding.md R70; the spec's decision D12, log
entry 8). -/
def Obligations.ReservedWordIsRefused : Prop :=
  ∀ s op arg, s.halted = false → s.progHigh.read s.pc.toNat = some op →
    s.progLow.read s.pc.toNat = some arg →
    op.extractLsb' 2 6 = 0b001111#6 → arg.extractLsb' 6 2 ≠ 0b01#2 →
    step s = .refused (.reservedEncoding op arg)

/-- Every instruction completes in every state: CESC raises no exception (60_exceptions.md R230,
R232). -/
def Obligations.EveryInstructionCompletes : Prop :=
  ∀ i s, ∃ t, exec i s = .next t

/-- `next` is PC + 1 modulo 256 (00_scope.md R11); the wrap at 0xFF is the spec's decision D5 (10_state.md R17,
log entry 9). -/
def Obligations.NextAddressWrapsModulo256 : Prop :=
  ∀ s : State, (s.nextPc).toNat = (s.pc.toNat + 1) % 256

/-! ## Reset -/

/-- What reset leaves, for every launch: SP 0xFF (the source), an empty LCD trace and a machine not
halted, PC 0x00 (the spec's decision D4, log entry 3), and everything the spec leaves unspecified as
the launch gives it: registers, flags, OUT, data memory, stack memory, and the program in its two
banks (10_state.md R31, R32). -/
def Obligations.LaunchLeavesTheResetValues : Prop :=
  ∀ l : Launch,
    (State.launch l).sp = 0xFF ∧ (State.launch l).pc = 0x00 ∧ (State.launch l).lcd = [] ∧
    (State.launch l).halted = false ∧ (State.launch l).reg .r0 = l.r0 ∧
    (State.launch l).reg .r1 = l.r1 ∧ (State.launch l).reg .r2 = l.r2 ∧
    (State.launch l).reg .r3 = l.r3 ∧ (State.launch l).flags = l.flags ∧
    (State.launch l).out = l.out ∧ (State.launch l).data = l.data ∧
    (State.launch l).stack = l.stack ∧ (State.launch l).progHigh = l.progHigh ∧
    (State.launch l).progLow = l.progLow

/-- The banks are in canonical form at reset, and at every launch whose banks are. -/
def Obligations.ResetBanksAreCanonical : Prop :=
  State.reset.banksWf = true ∧
  ∀ l : Launch, l.data.wf = true → l.stack.wf = true → l.progHigh.wf = true → l.progLow.wf = true →
    (State.launch l).banksWf = true

/-- Loading a program text places instruction `n` at address `n` of both program banks and changes
nothing else (30_encoding.md R74, 70_reset_and_hazards.md R258; the spec's decision D26, log
entry 7). -/
def Obligations.LoadedProgramStandsInBothBanks : Prop :=
  ∀ (s : State) (p : List (Byte × Byte)), p.length ≤ 256 →
    (∀ n (h : n < p.length), (s.loadProgram p).progHigh.read n = some p[n].1 ∧
      (s.loadProgram p).progLow.read n = some p[n].2) ∧
    (∀ n, p.length ≤ n → (s.loadProgram p).progHigh.read n = s.progHigh.read n ∧
      (s.loadProgram p).progLow.read n = s.progLow.read n) ∧
    { s.loadProgram p with progHigh := s.progHigh, progLow := s.progLow } = s

/-! ## The whole machine -/

/-- Every step keeps all four banks in canonical form: addresses strictly rising and below 256. -/
def Obligations.StepKeepsBanksCanonical : Prop :=
  ∀ s t, s.banksWf = true → step s = .next t → t.banksWf = true

/-- What each instruction may write (10_state.md R13, 60_exceptions.md R231): a general register only
as destination, SP only by the four stack moves, flags only by opcodes 0000 to 0011, OUT and the
LCD only by their instructions, the halted mark only by HLT, PC other than to the next instruction
only by the sixteen jumps (and HLT, after which the spec gives PC no value), and program memory
never. Flags outside opcodes 0000 to 0011: the spec's decision D14 (log entry 16). No interrupt or trap
moves PC: decision D15 (log entry 18). -/
def Obligations.StateIsWrittenOnlyAsListed : Prop :=
  ∀ i s t, exec i s = .next t →
    (∀ q, destReg i ≠ some q → t.reg q = s.reg q) ∧
    (movesSp i = false → t.sp = s.sp) ∧
    (writesFlags i = false → t.flags = s.flags) ∧
    (writesOut i = false → t.out = s.out) ∧
    (sendsLcd i = false → t.lcd = s.lcd) ∧
    (i ≠ .hlt → t.halted = s.halted) ∧
    (isJump i = false → i ≠ .hlt → t.pc = s.nextPc) ∧
    (writesData i = false → SameData s t) ∧
    (writesStack i = false → SameStack s t) ∧
    SameProgram s t

/-- An instruction that does not read a bank does the same whatever the bank holds, but for what it
leaves in that bank; program memory is read by no instruction's effect (20_memory.md R41). The second
run may have drawn any number of free values before, so V after a shift and PC after HLT are not
compared (log entries 4 and 5). -/
def Obligations.BanksAreReadOnlyAsListed : Prop :=
  ∀ i (s : State) (d k h l : Memory) (n : Nat), ∃ t,
    exec i s = .next t ∧
    (readsData i = false → ∃ u, exec i { s with data := d, draws := n } = .next u ∧
      SameButDrawn i t { u with data := t.data }) ∧
    (readsStack i = false → ∃ u, exec i { s with stack := k, draws := n } = .next u ∧
      SameButDrawn i t { u with stack := t.stack }) ∧
    ∃ u, exec i { s with progHigh := h, progLow := l, draws := n } = .next u ∧
      u.progHigh = h ∧ u.progLow = l ∧
      SameButDrawn i t { u with progHigh := t.progHigh, progLow := t.progLow }

/-- The flags are read and written only as listed (10_state.md R21, R22): two runs whose flags agree
on what an instruction reads end alike but for the flags, which are equal if the instruction
writes them and unchanged if it does not. In particular the undefined V after a shift reaches
nothing but JV, JNV, JLT, JLE. The second run may have drawn any number of free values before, so V
after a shift and PC after HLT are not compared (log entries 4 and 5). That nothing outside opcodes
0000 to 0011 writes a flag is the spec's decision D14 (log entry 16). -/
def Obligations.FlagsAreReadAndWrittenOnlyAsListed : Prop :=
  ∀ i (s : State) (f g : Flags) (n : Nat),
    (readsZ i = true → f.z = g.z) → (readsC i = true → f.c = g.c) →
    (readsV i = true → f.v = g.v) → (readsS i = true → f.s = g.s) →
    ∃ t u, exec i (s.setFlags f) = .next t ∧
      exec i { s.setFlags g with draws := n } = .next u ∧
      SameButDrawn i t (u.setFlags t.flags) ∧
      (writesFlags i = true → SameFlagsButDrawn i t.flags u.flags) ∧
      (writesFlags i = false → t.flags = f ∧ u.flags = g)

/-- A drawn value reaches only the V flag of the shifts and rotates (93_implementation_defined.md U1)
and PC after HLT (U7): whatever has been drawn before, everything else an instruction does is the
same. `draws` is the model's own field (log entries 4 and 5). The bytes that nothing has written are
free too, but not drawn (log entry 2): nothing is said of them here. -/
def Obligations.DrawnValuesReachOnlyVAndPcAfterHlt : Prop :=
  ∀ i (s : State) n, ∃ t u,
    exec i s = .next t ∧ exec i { s with draws := n } = .next u ∧ SameButDrawn i t u

/-- A step appends at most one byte to the LCD trace and takes nothing away (10_state.md R27, 20_memory.md
R49; the trace is the spec's decision D20, log entry 19). -/
def Obligations.LcdTraceOnlyGrows : Prop :=
  ∀ s t, step s = .next t → ∃ w, t.lcd = s.lcd ++ w ∧ w.length ≤ 1

/-! ## Arithmetic and logic -/

/-- ADD, as 40_alu.md R83 has it. -/
def Obligations.AddInstruction : Prop :=
  (∀ d a x b : BitVec 2, decode (0b0000#4 ++ d ++ a) (0b0001#4 ++ x ++ b) =
    .instr (.add (Reg.ofBits d) (Reg.ofBits a) (Reg.ofBits b))) ∧
  ∀ rd ra rb s, ∃ t, exec (.add rd ra rb) s = .next t ∧
    unsigned (t.reg rd) = (unsigned (s.reg ra) + unsigned (s.reg rb)) % 256 ∧
    (t.flags.c = true ↔ unsigned (s.reg ra) + unsigned (s.reg rb) > 255) ∧
    (t.flags.v = true ↔ OutsideByte (signed (s.reg ra) + signed (s.reg rb))) ∧
    ZeroSignOf t.flags (t.reg rd) ∧ OnlyRegAndFlags rd s t

/-- SUB, as 40_alu.md R84 has it; C is the borrow. -/
def Obligations.SubInstruction : Prop :=
  (∀ d a x b : BitVec 2, decode (0b0000#4 ++ d ++ a) (0b0010#4 ++ x ++ b) =
    .instr (.sub (Reg.ofBits d) (Reg.ofBits a) (Reg.ofBits b))) ∧
  ∀ rd ra rb s, ∃ t, exec (.sub rd ra rb) s = .next t ∧
    (unsigned (t.reg rd) : Int) = ((unsigned (s.reg ra) : Int) - unsigned (s.reg rb)) % 256 ∧
    (t.flags.c = true ↔ unsigned (s.reg ra) < unsigned (s.reg rb)) ∧
    (t.flags.v = true ↔ OutsideByte (signed (s.reg ra) - signed (s.reg rb))) ∧
    ZeroSignOf t.flags (t.reg rd) ∧ OnlyRegAndFlags rd s t

/-- ADDC and SUBB (40_alu.md R85, R86). That V counts the carry-in is the spec's decision D24 (log
entry 17). -/
def Obligations.AddcAndSubbInstructions : Prop :=
  (∀ rd ra rb s, ∃ t, exec (.addc rd ra rb) s = .next t ∧
    unsigned (t.reg rd) =
      (unsigned (s.reg ra) + unsigned (s.reg rb) + s.flags.c.toNat) % 256 ∧
    (t.flags.c = true ↔ unsigned (s.reg ra) + unsigned (s.reg rb) + s.flags.c.toNat > 255) ∧
    (t.flags.v = true ↔
      OutsideByte (signed (s.reg ra) + signed (s.reg rb) + s.flags.c.toNat)) ∧
    ZeroSignOf t.flags (t.reg rd) ∧ OnlyRegAndFlags rd s t) ∧
  (∀ rd ra rb s, ∃ t, exec (.subb rd ra rb) s = .next t ∧
    (unsigned (t.reg rd) : Int) =
      ((unsigned (s.reg ra) : Int) - unsigned (s.reg rb) - s.flags.c.toNat) % 256 ∧
    (t.flags.c = true ↔ unsigned (s.reg ra) < unsigned (s.reg rb) + s.flags.c.toNat) ∧
    (t.flags.v = true ↔
      OutsideByte (signed (s.reg ra) - signed (s.reg rb) - s.flags.c.toNat)) ∧
    ZeroSignOf t.flags (t.reg rd) ∧ OnlyRegAndFlags rd s t)

/-- MOVE copies Ra and sets Z and S from it (40_alu.md R82). That C and V are cleared is the spec's
decision D8 (log entry 11). -/
def Obligations.MoveInstruction : Prop :=
  ∀ rd ra s, ∃ t, exec (.move rd ra) s = .next t ∧ t.reg rd = s.reg ra ∧
    ZeroSignOf t.flags (s.reg ra) ∧ t.flags.c = false ∧ t.flags.v = false ∧
    OnlyRegAndFlags rd s t

/-- AND, OR, NOT, XOR, NAND, NOR, XNOR bit by bit (40_alu.md R87 to R93). That C and V are cleared is
the spec's decision D8 (log entry 11). -/
def Obligations.LogicInstructions : Prop :=
  LogicEffect .and (fun x y => x && y) ∧ LogicEffect .or (fun x y => x || y) ∧
  LogicEffect (fun rd ra _ => .not rd ra) (fun x _ => !x) ∧ LogicEffect .xor (fun x y => x != y) ∧
  LogicEffect .nand (fun x y => !(x && y)) ∧ LogicEffect .nor (fun x y => !(x || y)) ∧
  LogicEffect .xnor (fun x y => x == y)

/-- SLL and ROL (40_alu.md R94, R97): one place to the left, C the bit that leaves bit 7; V is left
free. That SLL ignores Rb is the spec's decision D9 (log entry 12), that ROL rotates within the
byte decision D10 (log entry 13), that Z and S follow the result decision D27 (log entry 28). -/
def Obligations.LeftShiftAndRotateInstructions : Prop :=
  (∀ rd ra s, ∃ t, exec (.sll rd ra) s = .next t ∧
    unsigned (t.reg rd) = 2 * unsigned (s.reg ra) % 256 ∧
    t.flags.c = (s.reg ra).getLsbD 7 ∧ ZeroSignOf t.flags (t.reg rd) ∧
    OnlyRegAndFlags rd s t) ∧
  (∀ rd ra s, ∃ t, exec (.rol rd ra) s = .next t ∧
    unsigned (t.reg rd) = 2 * unsigned (s.reg ra) % 256 + unsigned (s.reg ra) / 128 ∧
    t.flags.c = (s.reg ra).getLsbD 7 ∧ ZeroSignOf t.flags (t.reg rd) ∧
    OnlyRegAndFlags rd s t)

/-- SRL and SRA, as 40_alu.md R95 and R96 have them: one place to the right, C always 0, S always 0
after SRL and the operand's sign after SRA, whose result is the floor of half the signed operand;
V is left free. -/
def Obligations.RightShiftInstructions : Prop :=
  (∀ (d a : BitVec 2) (x : BitVec 4), decode (0b0000#4 ++ d ++ a) (0b1101#4 ++ x) =
    .instr (.srl (Reg.ofBits d) (Reg.ofBits a))) ∧
  (∀ (d a : BitVec 2) (x : BitVec 4), decode (0b0000#4 ++ d ++ a) (0b1110#4 ++ x) =
    .instr (.sra (Reg.ofBits d) (Reg.ofBits a))) ∧
  (∀ rd ra s, ∃ t, exec (.srl rd ra) s = .next t ∧
    unsigned (t.reg rd) = unsigned (s.reg ra) / 2 ∧
    t.flags.c = false ∧ t.flags.s = false ∧ ZeroSignOf t.flags (t.reg rd) ∧
    OnlyRegAndFlags rd s t) ∧
  (∀ rd ra s, ∃ t, exec (.sra rd ra) s = .next t ∧
    signed (t.reg rd) = (signed (s.reg ra)).fdiv 2 ∧
    (t.reg rd).getLsbD 7 = (s.reg ra).getLsbD 7 ∧
    (∀ k, k < 7 → (t.reg rd).getLsbD k = (s.reg ra).getLsbD (k + 1)) ∧
    t.flags.c = false ∧ t.flags.s = (s.reg ra).getLsbD 7 ∧ ZeroSignOf t.flags (t.reg rd) ∧
    OnlyRegAndFlags rd s t)

/-- Eight ROLs restore the value (40_alu.md R97; the 8-bit rotate is the spec's decision D10, log
entry 13). -/
def Obligations.EightRotatesRestoreTheRegister : Prop :=
  ∀ r s, ∃ t, execAll (List.replicate 8 (.rol r r)) s = .next t ∧ SameRegs s t

/-- ADDI, as 40_alu.md R98 has it: C is the carry, so a negative immediate leaves the inverse of the
borrow. -/
def Obligations.AddiInstruction : Prop :=
  (∀ (d a : BitVec 2) imm, decode (0b0001#4 ++ d ++ a) imm =
    .instr (.addi (Reg.ofBits d) (Reg.ofBits a) imm)) ∧
  (∀ rd ra imm s, ∃ t, exec (.addi rd ra imm) s = .next t ∧
    unsigned (t.reg rd) = (unsigned (s.reg ra) + unsigned imm) % 256 ∧
    (t.flags.c = true ↔ unsigned (s.reg ra) + unsigned imm > 255) ∧
    (t.flags.v = true ↔ OutsideByte (signed (s.reg ra) + signed imm)) ∧
    ZeroSignOf t.flags (t.reg rd) ∧ OnlyRegAndFlags rd s t) ∧
  (∀ rd ra s, ∃ t, exec (.addi rd ra 0xFF) s = .next t ∧
    t.reg rd = s.reg ra - 1 ∧ (t.flags.c = false ↔ s.reg ra = 0x00)) ∧
  (∀ rd ra s, ∃ t, exec (.addi rd ra 0x00) s = .next t ∧
    t.reg rd = s.reg ra ∧ t.flags.c = false ∧ t.flags.v = false)

/-- CMP-SUBI, as 40_alu.md R117 has it: register minus immediate, flags only; it is also written
CMP Ra, Imm8. -/
def Obligations.CmpSubiInstruction : Prop :=
  (∀ (a : BitVec 2) imm, decode (0b0011#4 ++ 0b01#2 ++ a) imm =
    .instr (.cmpSubi (Reg.ofBits a) imm)) ∧
  ∀ ra imm s, ∃ t, exec (.cmpSubi ra imm) s = .next t ∧
    (t.flags.c = true ↔ unsigned (s.reg ra) < unsigned imm) ∧
    (t.flags.v = true ↔ OutsideByte (signed (s.reg ra) - signed imm)) ∧
    ZeroSignOf t.flags (s.reg ra - imm) ∧ OnlyFlags s t ∧
    ∀ base, (AsmMacro.cmpImm ra imm).expand base = [.cmpSubi ra imm]

/-- ANDI and CMP-ANDI (40_alu.md R99, R118), bit by bit. That C and V are cleared is the spec's
decision D8 (log entry 11). -/
def Obligations.AndImmediateInstructions : Prop :=
  (∀ rd ra imm s, ∃ t, exec (.andi rd ra imm) s = .next t ∧
    (∀ k, k < 8 → (t.reg rd).getLsbD k = ((s.reg ra).getLsbD k && imm.getLsbD k)) ∧
    ZeroSignOf t.flags (t.reg rd) ∧ t.flags.c = false ∧ t.flags.v = false ∧
    OnlyRegAndFlags rd s t) ∧
  (∀ ra imm s, ∃ t, exec (.cmpAndi ra imm) s = .next t ∧
    (t.flags.z = true ↔ ∀ k, k < 8 → ((s.reg ra).getLsbD k && imm.getLsbD k) = false) ∧
    t.flags.s = ((s.reg ra).getLsbD 7 && imm.getLsbD 7) ∧
    t.flags.c = false ∧ t.flags.v = false ∧ OnlyFlags s t)

/-- Each of the sixteen compare operations leaves exactly the flags of the ALU operation of the same
Funct and writes no register (40_alu.md R100), V compared only where it is defined (R80, U1): the two
may have drawn differently. They are CMP-MOVE, CMP-ADD, CMP-SUB, CMP-ADDC, CMP-SUBB,
CMP-AND, CMP-OR, CMP-NOT, CMP-XOR, CMP-NAND, CMP-NOR, CMP-XNOR, CMP-SLL, CMP-SRL, CMP-SRA, CMP-ROL.
The bare mnemonic CMP is CMP-SUB. -/
def Obligations.CompareIsTheAluOperationWithoutTheWrite : Prop :=
  (∀ (f : BitVec 4) (a x b : BitVec 2), decode (0b0011#4 ++ 0b00#2 ++ a) (f ++ x ++ b) =
    .instr (cmpInstr (Funct.ofBits f) (Reg.ofBits a) (Reg.ofBits b))) ∧
  (∀ f rd ra rb (s : State) n, ∃ t u, exec (cmpInstr f ra rb) s = .next t ∧
    exec (aluInstr f rd ra rb) { s with draws := n } = .next u ∧
    SameFlagsButDrawn (aluInstr f rd ra rb) t.flags u.flags ∧ OnlyFlags s t) ∧
  ∀ base ra rb, (AsmMacro.cmp ra rb).expand base = [.cmpSub ra rb]

/-- CLF clears all four flags and touches nothing else (40_alu.md R119); words with other argument
bits 7:6 are rejected, the spec's decision D12 (log entry 8). -/
def Obligations.ClfInstruction : Prop :=
  (∀ (x : BitVec 2) (y : BitVec 6),
    decode (0b001111#6 ++ x) (0b01#2 ++ y) = .instr .clf) ∧
  ∀ s, ∃ t, exec .clf s = .next t ∧ t.flags = ⟨false, false, false, false⟩ ∧ OnlyFlags s t

/-- The bit-level forms of V (40_alu.md R120, which the spec derives from R80), for either value of
the carry. -/
def Obligations.OverflowByOperandSigns : Prop :=
  (∀ a b cin, overflowOfAdd a b cin = true ↔
    a.getLsbD 7 = b.getLsbD 7 ∧ (a + b + carryByte cin).getLsbD 7 ≠ a.getLsbD 7) ∧
  (∀ a b cin, overflowOfSub a b cin = true ↔
    a.getLsbD 7 ≠ b.getLsbD 7 ∧ (a - b - carryByte cin).getLsbD 7 ≠ a.getLsbD 7)

/-- Numbers of two bytes (40_alu.md R120): ADD then ADDC is the 16-bit sum with its carry and signed
overflow; SUB then SUBB is the 16-bit difference, C its borrow, and V xor S its signed order. V after
ADDC and SUBB rests on the spec's decision D24 (log entry 17). -/
def Obligations.TwoByteArithmetic : Prop :=
  ∀ lo hi lo' hi' (s : State), lo ≠ hi → lo ≠ hi' →
    (∃ t, execAll [.add lo lo lo', .addc hi hi hi'] s = .next t ∧
      pairNat (t.reg hi) (t.reg lo) =
        (pairNat (s.reg hi) (s.reg lo) + pairNat (s.reg hi') (s.reg lo')) % 65536 ∧
      (t.flags.c = true ↔
        pairNat (s.reg hi) (s.reg lo) + pairNat (s.reg hi') (s.reg lo') > 65535) ∧
      (t.flags.v = true ↔
        pairInt (s.reg hi) (s.reg lo) + pairInt (s.reg hi') (s.reg lo') < -32768 ∨
        pairInt (s.reg hi) (s.reg lo) + pairInt (s.reg hi') (s.reg lo') > 32767)) ∧
    (∃ t, execAll [.sub lo lo lo', .subb hi hi hi'] s = .next t ∧
      (pairNat (t.reg hi) (t.reg lo) : Int) =
        ((pairNat (s.reg hi) (s.reg lo) : Int) - pairNat (s.reg hi') (s.reg lo')) % 65536 ∧
      (t.flags.c = true ↔
        pairNat (s.reg hi) (s.reg lo) < pairNat (s.reg hi') (s.reg lo')) ∧
      ((t.flags.v != t.flags.s) = true ↔
        pairInt (s.reg hi) (s.reg lo) < pairInt (s.reg hi') (s.reg lo')))

/-! ## Data movement -/

/-- LI, as 41_data_movement.md R130 has it. -/
def Obligations.LiInstruction : Prop :=
  (∀ (d x : BitVec 2) imm, decode (0b0100#4 ++ d ++ x) imm = .instr (.li (Reg.ofBits d) imm)) ∧
  ∀ rd imm s, ∃ t, exec (.li rd imm) s = .next t ∧ t.reg rd = imm ∧
    t.flags = s.flags ∧ OnlyRegAndFlags rd s t

/-- ST-Addr, as 41_data_movement.md R131 has it: Ra is the source. -/
def Obligations.StAddrInstruction : Prop :=
  (∀ (a : BitVec 2) addr, decode (0b0101#4 ++ 0b00#2 ++ a) addr =
    .instr (.stAddr (Reg.ofBits a) addr)) ∧
  ∀ ra addr s, ∃ t, exec (.stAddr ra addr) s = .next t ∧
    t.dataByte (eaImmediate addr) = s.reg ra ∧ eaImmediate addr = addr ∧
    SameMemoryButData (eaImmediate addr) s t ∧ SameRegs s t ∧ t.flags = s.flags ∧ t.sp = s.sp ∧
    SameDevices s t ∧ t.pc = s.nextPc

/-- ST-Reg stores Ra at the address held in Rb (41_data_movement.md R132). Where the word holds Rb
is the spec's decision D11 (log entry 14). -/
def Obligations.StRegInstruction : Prop :=
  ∀ ra rb s, ∃ t, exec (.stReg ra rb) s = .next t ∧
    t.dataByte (eaRegister s rb) = s.reg ra ∧ eaRegister s rb = s.reg rb ∧
    SameMemoryButData (eaRegister s rb) s t ∧ SameRegs s t ∧ t.flags = s.flags ∧ t.sp = s.sp ∧
    SameDevices s t ∧ t.pc = s.nextPc

/-- LD-Addr and LD-Reg, as 41_data_movement.md R134 and R135 have them; a byte that nothing has
written is the model's free constant for its address (log entry 2). -/
def Obligations.LoadInstructions : Prop :=
  (∀ (d x : BitVec 2) addr, decode (0b0110#4 ++ d ++ x) addr =
    .instr (.ldAddr (Reg.ofBits d) addr)) ∧
  (∀ (d a : BitVec 2) arg, decode (0b0111#4 ++ d ++ a) arg =
    .instr (.ldReg (Reg.ofBits d) (Reg.ofBits a))) ∧
  (∀ rd addr s, ∃ t, exec (.ldAddr rd addr) s = .next t ∧ t.reg rd = s.dataByte addr ∧
    t.flags = s.flags ∧ OnlyRegAndFlags rd s t) ∧
  (∀ rd ra s, ∃ t, exec (.ldReg rd ra) s = .next t ∧ t.reg rd = s.dataByte (s.reg ra) ∧
    t.flags = s.flags ∧ OnlyRegAndFlags rd s t)

/-- PUSH writes Ra in the cell at SP and decrements SP, modulo 256 (41_data_movement.md R133,
10_state.md R19). The convention and the wrap are the spec's decisions D6 and D7 (log entry 10). -/
def Obligations.PushInstruction : Prop :=
  ∀ ra s, ∃ t, exec (.push ra) s = .next t ∧ t.stackByte (eaPush s) = s.reg ra ∧
    eaPush s = s.sp ∧ t.sp = s.sp - 1 ∧ SameMemoryButStack (eaPush s) s t ∧
    SameRegs s t ∧ t.flags = s.flags ∧ SameDevices s t ∧ t.pc = s.nextPc

/-- POP increments SP, modulo 256, and loads the cell it then names; the cell keeps its content
(41_data_movement.md R136, 10_state.md R19; decisions D6 and D7, log entry 10). -/
def Obligations.PopInstruction : Prop :=
  ∀ rd s, ∃ t, exec (.pop rd) s = .next t ∧ t.reg rd = s.stackByte (s.sp + 1) ∧
    t.sp = s.sp + 1 ∧ SameRegsBut rd s t ∧ t.flags = s.flags ∧ SameMemory s t ∧
    SameDevices s t ∧ t.pc = s.nextPc

/-- SWAP: the top of the stack becomes the old Ra, Rd becomes the old top, SP is unchanged
(41_data_movement.md R137; the top cell by decisions D6 and D7, log entry 10). -/
def Obligations.SwapInstruction : Prop :=
  ∀ rd ra s, ∃ t, exec (.swap rd ra) s = .next t ∧ t.reg rd = s.stackByte (eaTop s) ∧
    eaTop s = s.sp + 1 ∧ t.stackByte (eaTop s) = s.reg ra ∧ t.sp = s.sp ∧
    SameMemoryButStack (eaTop s) s t ∧ SameRegsBut rd s t ∧ t.flags = s.flags ∧
    SameDevices s t ∧ t.pc = s.nextPc

/-- A load returns the most recent store to its address in program order (20_memory.md R49 a): after
ST-Addr or ST-Reg has stored to an address, and after any instructions none of which stores to that
address (stores to other addresses among them), LD-Addr from the address and LD-Reg through any
register that holds it give the stored byte. Sequential execution is the spec's decision D19 (log
entry 27), ST-Reg's field Rb decision D11 (log entry 14). -/
def Obligations.LoadReturnsTheLatestStore : Prop :=
  ∀ store a v rd (is : List Instr) (s t u : State),
    dataStoreAddr store s = some a → dataStoreByte store s = some v →
    exec store s = .next t → NeverStoresTo a is t → execAll is t = .next u →
    (∃ w, exec (.ldAddr rd a) u = .next w ∧ w.reg rd = v) ∧
    ∀ ra, u.reg ra = a → ∃ w, exec (.ldReg rd ra) u = .next w ∧ w.reg rd = v

/-- The stack bank behaves as a last-in-first-out buffer of 256 entries (10_state.md R19): for each
instruction, what the stack held before gives what it holds after. A push onto a full stack loses
the oldest entry. The wrap is the spec's decision D7 (log entry 10). -/
def Obligations.StackIsACircularLastInFirstOutBuffer : Prop :=
  ∀ i s (vs : List Byte), vs.length ≤ 256 → Safety.StackHolds s vs →
    ∃ t, exec i s = .next t ∧
      match i with
      | .push ra => Safety.StackHolds t ((s.reg ra :: vs).take 256)
      | .jal _ => Safety.StackHolds t ((s.nextPc :: vs).take 256)
      | .pop rd => ∀ v ws, vs = v :: ws → t.reg rd = v ∧ Safety.StackHolds t ws
      | .ret => ∀ v ws, vs = v :: ws → t.pc = v ∧ Safety.StackHolds t ws
      | .swap rd ra => ∀ v ws, vs = v :: ws →
          t.reg rd = v ∧ Safety.StackHolds t (s.reg ra :: ws)
      | _ => Safety.StackHolds t vs

/-! ## Jumps -/

/-- J and JR, as 42_jumps.md R150 and R151 have them. -/
def Obligations.UnconditionalJumpInstructions : Prop :=
  (∀ (x : BitVec 2) addr, decode (0b1010#4 ++ 0b00#2 ++ x) addr = .instr (.j addr)) ∧
  (∀ (a : BitVec 2) arg, decode (0b1010#4 ++ 0b01#2 ++ a) arg = .instr (.jr (Reg.ofBits a))) ∧
  (∀ addr s, ∃ t, exec (.j addr) s = .next t ∧ t.pc = addr ∧ OnlyPc s t) ∧
  (∀ ra s, ∃ t, exec (.jr ra) s = .next t ∧ t.pc = s.reg ra ∧ OnlyPc s t)

/-- JAL pushes the address of the next instruction and jumps (42_jumps.md R152). The stack convention
is the spec's decisions D6 and D7 (log entry 10), the wrap of PC + 1 decision D5 (log entry 9). -/
def Obligations.JalInstruction : Prop :=
  ∀ addr s, ∃ t, exec (.jal addr) s = .next t ∧ t.pc = addr ∧
    t.stackByte (eaPush s) = s.pc + 1 ∧ eaPush s = s.sp ∧ t.sp = s.sp - 1 ∧
    SameMemoryButStack (eaPush s) s t ∧ SameRegs s t ∧ t.flags = s.flags ∧ SameDevices s t

/-- RET pops the top of the stack into PC and restores nothing else (42_jumps.md R153, 60_exceptions.md
R234; the stack convention by decisions D6 and D7, log entry 10). -/
def Obligations.RetInstruction : Prop :=
  ∀ s, ∃ t, exec .ret s = .next t ∧ t.pc = s.stackByte (s.sp + 1) ∧ t.sp = s.sp + 1 ∧
    SameMemory s t ∧ SameRegs s t ∧ t.flags = s.flags ∧ SameDevices s t

/-- A call whose subroutine pushes and pops a register and returns comes back to the instruction
after the JAL with SP, every register and the flags as they were: the ABI's contract holds
(44_abi_macros.md R202, R205; the stack convention by decisions D6 and D7, log entry 10). -/
def Obligations.CallPushPopReturnKeepsTheContract : Prop :=
  ∀ addr r (s : State), ∃ t, execAll [.jal addr, .push r, .pop r, .ret] s = .next t ∧
    Safety.CallKept s t ∧ SameRegs s t ∧ t.flags = s.flags ∧ SameData s t

/-- JZ, JNZ, JC, JNC, JV, JNV, JN, JP, as 42_jumps.md R154 to R161 have them: the word, the
condition on the flags, that nothing but PC changes, the macro names of JZ, JNZ and JC, what JNC
decides after CMP-SUB, and what JZ, JN and JP say of a byte after CMP-MOVE. -/
def Obligations.SingleFlagJumpInstructions : Prop :=
  (∀ (x : BitVec 2) addr,
    decode (0b101100#6 ++ x) addr = .instr (.jz addr) ∧
    decode (0b101101#6 ++ x) addr = .instr (.jnz addr) ∧
    decode (0b101110#6 ++ x) addr = .instr (.jc addr) ∧
    decode (0b101111#6 ++ x) addr = .instr (.jnc addr) ∧
    decode (0b110000#6 ++ x) addr = .instr (.jv addr) ∧
    decode (0b110001#6 ++ x) addr = .instr (.jnv addr) ∧
    decode (0b110010#6 ++ x) addr = .instr (.jn addr) ∧
    decode (0b110011#6 ++ x) addr = .instr (.jp addr)) ∧
  JumpsWhen .jz (fun s => s.flags.z = true) ∧ JumpsWhen .jnz (fun s => s.flags.z = false) ∧
  JumpsWhen .jc (fun s => s.flags.c = true) ∧ JumpsWhen .jnc (fun s => s.flags.c = false) ∧
  JumpsWhen .jv (fun s => s.flags.v = true) ∧ JumpsWhen .jnv (fun s => s.flags.v = false) ∧
  JumpsWhen .jn (fun s => s.flags.s = true) ∧ JumpsWhen .jp (fun s => s.flags.s = false) ∧
  (∀ base addr, (AsmMacro.jeq addr).expand base = [.jz addr] ∧
    (AsmMacro.jne addr).expand base = [.jnz addr] ∧
    (AsmMacro.jltu addr).expand base = [.jc addr]) ∧
  (∀ ra rb s, ∃ t, exec (.cmpSub ra rb) s = .next t ∧
    TakenExactlyWhen t .jnc (unsigned (s.reg rb) ≤ unsigned (s.reg ra))) ∧
  ∀ ra s, ∃ t, exec (.cmpMove ra) s = .next t ∧
    TakenExactlyWhen t .jz (s.reg ra = 0x00) ∧ TakenExactlyWhen t .jnz (s.reg ra ≠ 0x00) ∧
    TakenExactlyWhen t .jn ((s.reg ra).getLsbD 7 = true) ∧
    TakenExactlyWhen t .jp ((s.reg ra).getLsbD 7 = false)

/-- JSP, JLEU, JLT, JLE, as 42_jumps.md R162 to R165 have them: JSP is taken after CLF, and what the
last three decide after CMP-SUB. -/
def Obligations.CombinedFlagJumpInstructions : Prop :=
  (∀ (x : BitVec 2) addr,
    decode (0b110100#6 ++ x) addr = .instr (.jsp addr) ∧
    decode (0b110101#6 ++ x) addr = .instr (.jleu addr) ∧
    decode (0b110110#6 ++ x) addr = .instr (.jlt addr) ∧
    decode (0b110111#6 ++ x) addr = .instr (.jle addr)) ∧
  JumpsWhen .jsp (fun s => s.flags.s = false ∧ s.flags.z = false) ∧
  JumpsWhen .jleu (fun s => s.flags.c = true ∨ s.flags.z = true) ∧
  JumpsWhen .jlt (fun s => s.flags.v ≠ s.flags.s) ∧
  JumpsWhen .jle (fun s => s.flags.v ≠ s.flags.s ∨ s.flags.z = true) ∧
  (∀ s, ∃ t, exec .clf s = .next t ∧ TakenExactlyWhen t .jsp True) ∧
  ∀ ra rb s, ∃ t, exec (.cmpSub ra rb) s = .next t ∧
    TakenExactlyWhen t .jleu (unsigned (s.reg ra) ≤ unsigned (s.reg rb)) ∧
    TakenExactlyWhen t .jlt (signed (s.reg ra) < signed (s.reg rb)) ∧
    TakenExactlyWhen t .jle (signed (s.reg ra) ≤ signed (s.reg rb))

/-- What each of the twelve conditions decides after CMP-SUB, CMP-SUBI and SUB (42_jumps.md R167, which
the spec derives from 40_alu.md R80; JV and JNV by R80 itself). -/
def Obligations.ConditionsDecideOrderAfterASubtraction : Prop :=
  (∀ ra rb s, ∃ t, exec (.cmpSub ra rb) s = .next t ∧
    ConditionsAfterCompare t (s.reg ra) (s.reg rb)) ∧
  (∀ ra imm s, ∃ t, exec (.cmpSubi ra imm) s = .next t ∧
    ConditionsAfterCompare t (s.reg ra) imm) ∧
  (∀ rd ra rb s, ∃ t, exec (.sub rd ra rb) s = .next t ∧
    ConditionsAfterCompare t (s.reg ra) (s.reg rb))

/-! ## Output, HLT, NOP -/

/-- LCD-Com, LCD-Imm, LCD-Reg, LCD-Addr, as 43_output_misc.md R180 to R183 have them: one tagged byte
at the end of the trace. -/
def Obligations.LcdInstructions : Prop :=
  (∀ (x : BitVec 2) (y : Byte),
    decode (0b111000#6 ++ x) y = .instr (.lcdCom y) ∧
    decode (0b111001#6 ++ x) y = .instr (.lcdImm y) ∧
    decode (0b111010#6 ++ x) y = .instr (.lcdReg (Reg.ofBits x)) ∧
    decode (0b111011#6 ++ x) y = .instr (.lcdAddr y)) ∧
  (∀ imm, SendsToLcd (.lcdCom imm) .command (fun _ => imm)) ∧
  (∀ imm, SendsToLcd (.lcdImm imm) .data (fun _ => imm)) ∧
  (∀ ra, SendsToLcd (.lcdReg ra) .data (fun s => s.reg ra)) ∧
  (∀ addr, SendsToLcd (.lcdAddr addr) .data (fun s => s.dataByte addr))

/-- DEC-Reg and DEC-Addr, as 43_output_misc.md R184 and R185 have them: OUT is written, nothing is
sent to the LCD, and OUT keeps the value through every other instruction, HLT among them. -/
def Obligations.DecimalDisplayInstructions : Prop :=
  (∀ (x : BitVec 2) (y : Byte),
    decode (0b111100#6 ++ x) y = .instr (.decReg (Reg.ofBits x)) ∧
    decode (0b111101#6 ++ x) y = .instr (.decAddr y)) ∧
  (∀ ra s, ∃ t, exec (.decReg ra) s = .next t ∧ t.out = s.reg ra ∧ t.lcd = s.lcd ∧
    SameRegs s t ∧ t.flags = s.flags ∧ t.sp = s.sp ∧ SameMemory s t ∧ t.halted = s.halted ∧
    t.pc = s.nextPc) ∧
  (∀ addr s, ∃ t, exec (.decAddr addr) s = .next t ∧ t.out = s.dataByte addr ∧ t.lcd = s.lcd ∧
    SameRegs s t ∧ t.flags = s.flags ∧ t.sp = s.sp ∧ SameMemory s t ∧ t.halted = s.halted ∧
    t.pc = s.nextPc) ∧
  ∀ i s, writesOut i = false → ∃ t, exec i s = .next t ∧ t.out = s.out

/-- HLT, as 43_output_misc.md R186 has it: everything but PC keeps its value, and no instruction
executes afterwards. Nothing is said of PC. -/
def Obligations.HltInstruction : Prop :=
  (∀ (x : BitVec 2) arg, decode (0b111110#6 ++ x) arg = .instr .hlt) ∧
  ∀ s, ∃ t, exec .hlt s = .next t ∧ t.halted = true ∧ (∀ u, step t ≠ .next u) ∧
    SameRegs s t ∧ t.flags = s.flags ∧ t.sp = s.sp ∧ SameMemory s t ∧ t.out = s.out ∧
    t.lcd = s.lcd

/-- NOP changes nothing but PC, which goes to the next instruction (43_output_misc.md R187; its 7
clock cycles are left out, log entry 24). -/
def Obligations.NopInstruction : Prop :=
  (∀ (x : BitVec 2) arg, decode (0b111111#6 ++ x) arg = .instr .nop) ∧
  ∀ s, exec .nop s = .next { s with pc := s.nextPc }

/-! ## Macros -/

/-- The expansions that 44_abi_macros.md and 95_test_vectors.md section 1.2 give in bytes; the
don't-care bits are 0 by the spec's decision D13 (log entry 15). -/
def Obligations.MacroExpansionsHaveTheListedBytes : Prop :=
  ((AsmMacro.cmp .r1 .r2).expand 0).map encode = [(0x31, 0x22)] ∧
  ((AsmMacro.cmpImm .r1 5).expand 0).map encode = [(0x35, 0x05)] ∧
  ((AsmMacro.test .r1).expand 0).map encode = [(0x31, 0x00)] ∧
  ((AsmMacro.incr .r2).expand 0).map encode = [(0x1A, 0x01)] ∧
  ((AsmMacro.decr .r2).expand 0).map encode = [(0x1A, 0xFF)] ∧
  ((AsmMacro.sllc .r3 .r1).expand 0).map encode = [(0x0D, 0x31)] ∧
  ((AsmMacro.swapTop .r1).expand 0).map encode = [(0x95, 0x00)] ∧
  (AsmMacro.lcdInit.expand 0).map encode = [(0xE0, 0x38), (0xE0, 0x0E), (0xE0, 0x06)] ∧
  (AsmMacro.lcdClr.expand 0).map encode = [(0xE0, 0x01)] ∧
  ((AsmMacro.jeq 0x10).expand 0).map encode = [(0xB0, 0x10)] ∧
  ((AsmMacro.jne 0x10).expand 0).map encode = [(0xB4, 0x10)] ∧
  ((AsmMacro.jltu 0x10).expand 0).map encode = [(0xB8, 0x10)] ∧
  ((AsmMacro.jumpImm .gtu .r0 9 0x40).expand 0x20).map encode =
    [(0x34, 0x09), (0xD4, 0x23), (0xA0, 0x40)] ∧
  ((AsmMacro.jumpImm .ge .r0 9 0x40).expand 0x20).map encode =
    [(0x34, 0x09), (0xD8, 0x23), (0xA0, 0x40)] ∧
  ((AsmMacro.jumpReg .gt .r0 .r1 0x40).expand 0).map encode = [(0x31, 0x20), (0xD8, 0x40)]

/-- INCR and DECR, as 44_abi_macros.md R211 and R212 have them: the expansion, and the flags it
leaves. -/
def Obligations.IncrementAndDecrementFlags : Prop :=
  (∀ base ra, (AsmMacro.incr ra).expand base = [.addi ra ra 0x01]) ∧
  (∀ base ra, (AsmMacro.decr ra).expand base = [.addi ra ra 0xFF]) ∧
  encode (.addi .r2 .r2 0x01) = (0x1A, 0x01) ∧ encode (.addi .r2 .r2 0xFF) = (0x1A, 0xFF) ∧
  (∀ ra s, ∃ t, execAll ((AsmMacro.incr ra).expand s.pc) s = .next t ∧
    t.reg ra = s.reg ra + 1 ∧ (t.flags.c = true ↔ s.reg ra = 0xFF) ∧
    (t.flags.z = true ↔ s.reg ra = 0xFF) ∧ (t.flags.v = true ↔ s.reg ra = 0x7F) ∧
    t.flags.s = (s.reg ra + 1).getLsbD 7 ∧ OnlyRegAndFlags ra s t) ∧
  (∀ ra s, ∃ t, execAll ((AsmMacro.decr ra).expand s.pc) s = .next t ∧
    t.reg ra = s.reg ra - 1 ∧ (t.flags.c = false ↔ s.reg ra = 0x00) ∧
    (t.flags.z = true ↔ s.reg ra = 0x01) ∧ (t.flags.v = true ↔ s.reg ra = 0x80) ∧
    t.flags.s = (s.reg ra - 1).getLsbD 7 ∧ OnlyRegAndFlags ra s t)

/-- SLLC rotates left through the carry flag (44_abi_macros.md R213); V is ADDC's, by the spec's
decision D24 (log entry 17). -/
def Obligations.SllcRotatesThroughTheCarryFlag : Prop :=
  ∀ rd ra s, ∃ t, execAll ((AsmMacro.sllc rd ra).expand s.pc) s = .next t ∧
    (t.reg rd).getLsbD 0 = s.flags.c ∧
    (∀ k, k < 7 → (t.reg rd).getLsbD (k + 1) = (s.reg ra).getLsbD k) ∧
    t.flags.c = (s.reg ra).getLsbD 7 ∧
    t.flags.v = ((s.reg ra).getLsbD 7 != (s.reg ra).getLsbD 6) ∧
    ZeroSignOf t.flags (t.reg rd) ∧ OnlyRegAndFlags rd s t

/-- The twenty compare-and-jump macros (44_abi_macros.md R220, R221, with the spec's correction C11 of
JGT): wherever the expansion stands in program memory, running it from PC reaches the target exactly
when the relation holds, and the instruction after the expansion otherwise (log entry 26; addresses
wrap by decision D5, log entry 9). -/
def Obligations.CompareAndJumpMacrosDecideTheirRelation : Prop :=
  (∀ c ra rb addr, MacroJumpsWhen (.jumpReg c ra rb addr) addr
    (fun s => c.holds (s.reg ra) (s.reg rb) = true)) ∧
  (∀ c ra imm addr, MacroJumpsWhen (.jumpImm c ra imm addr) addr
    (fun s => c.holds (s.reg ra) imm = true))
end

