-- ==== Sys2Proof/Laws/Decode.lean ====
section
/-! SUPPORT. The fields of the bytes that the encoder writes, and that register numbers and Funct
codes survive encoding. -/

namespace Sys2Proof

@[simp] theorem Reg.ofBits_toBits (r : Reg) : Reg.ofBits r.toBits = r := by
  cases r <;> rfl

@[simp] theorem Reg.toBits_ofBits : ∀ b : BitVec 2, (Reg.ofBits b).toBits = b := by
  decide

@[simp] theorem Funct.ofBits_toBits (f : Funct) : Funct.ofBits f.toBits = f := by
  cases f <;> rfl

@[simp] theorem Funct.toBits_ofBits : ∀ b : BitVec 4, (Funct.ofBits b).toBits = b := by
  decide

@[simp] theorem majorBits_opcodeByte : ∀ (m : BitVec 4) (d a : BitVec 2),
    majorBits (opcodeByte m d a) = m := by
  decide

@[simp] theorem destBits_opcodeByte : ∀ (m : BitVec 4) (d a : BitVec 2),
    destBits (opcodeByte m d a) = d := by
  decide

@[simp] theorem firstBits_opcodeByte : ∀ (m : BitVec 4) (d a : BitVec 2),
    firstBits (opcodeByte m d a) = a := by
  decide

/-- Every opcode byte is made of its three fields. -/
theorem opcodeByte_fields : ∀ op : Byte,
    opcodeByte (majorBits op) (destBits op) (firstBits op) = op := by
  decide

@[simp] theorem functBits_functByte (f : Funct) (b : BitVec 2) :
    functBits (functByte f b) = f.toBits := by
  revert b; cases f <;> decide

@[simp] theorem secondBits_functByte (f : Funct) (b : BitVec 2) :
    secondBits (functByte f b) = b := by
  revert b; cases f <;> decide

end Sys2Proof
end

