-- ==== Sys2Proof/Laws/State.lean ====
section
/-! SUPPORT. One lemma per field of the state and per named update, and the same for the observers
`reg`, `dataByte`, `stackByte` and `nextPc`, so that no proof unfolds a record update. -/

namespace Sys2Proof.Machine

variable (s : State)

/-! ### setReg -/

@[simp] theorem State.setReg_pc (r : Reg) (v : Byte) :
    (s.setReg r v).pc = s.pc := by cases r <;> rfl
@[simp] theorem State.setReg_sp (r : Reg) (v : Byte) :
    (s.setReg r v).sp = s.sp := by cases r <;> rfl
@[simp] theorem State.setReg_flags (r : Reg) (v : Byte) :
    (s.setReg r v).flags = s.flags := by cases r <;> rfl
@[simp] theorem State.setReg_out (r : Reg) (v : Byte) :
    (s.setReg r v).out = s.out := by cases r <;> rfl
@[simp] theorem State.setReg_data (r : Reg) (v : Byte) :
    (s.setReg r v).data = s.data := by cases r <;> rfl
@[simp] theorem State.setReg_stack (r : Reg) (v : Byte) :
    (s.setReg r v).stack = s.stack := by cases r <;> rfl
@[simp] theorem State.setReg_progHigh (r : Reg) (v : Byte) :
    (s.setReg r v).progHigh = s.progHigh := by cases r <;> rfl
@[simp] theorem State.setReg_progLow (r : Reg) (v : Byte) :
    (s.setReg r v).progLow = s.progLow := by cases r <;> rfl
@[simp] theorem State.setReg_lcd (r : Reg) (v : Byte) :
    (s.setReg r v).lcd = s.lcd := by cases r <;> rfl
@[simp] theorem State.setReg_halted (r : Reg) (v : Byte) :
    (s.setReg r v).halted = s.halted := by cases r <;> rfl
@[simp] theorem State.setReg_draws (r : Reg) (v : Byte) :
    (s.setReg r v).draws = s.draws := by cases r <;> rfl
@[simp] theorem State.setReg_reg_same (r : Reg) (v : Byte) : (s.setReg r v).reg r = v := by
  cases r <;> rfl
theorem State.setReg_reg_other (r q : Reg) (v : Byte) (h : q ≠ r) :
    (s.setReg r v).reg q = s.reg q := by
  cases r <;> cases q <;> first | rfl | exact absurd rfl h
theorem State.setReg_reg (r q : Reg) (v : Byte) :
    (s.setReg r v).reg q = if q = r then v else s.reg q := by
  cases r <;> cases q <;> rfl
@[simp] theorem State.setReg_dataByte (q : Byte) (r : Reg) (v : Byte) :
    (s.setReg r v).dataByte q = s.dataByte q := by cases r <;> rfl
@[simp] theorem State.setReg_stackByte (q : Byte) (r : Reg) (v : Byte) :
    (s.setReg r v).stackByte q = s.stackByte q := by cases r <;> rfl
@[simp] theorem State.setReg_nextPc (r : Reg) (v : Byte) : (s.setReg r v).nextPc = s.nextPc := by cases r <;> rfl

/-! ### setPc -/

@[simp] theorem State.setPc_r0 (t : Byte) : (s.setPc t).r0 = s.r0 := rfl
@[simp] theorem State.setPc_r1 (t : Byte) : (s.setPc t).r1 = s.r1 := rfl
@[simp] theorem State.setPc_r2 (t : Byte) : (s.setPc t).r2 = s.r2 := rfl
@[simp] theorem State.setPc_r3 (t : Byte) : (s.setPc t).r3 = s.r3 := rfl
@[simp] theorem State.setPc_pc (t : Byte) : (s.setPc t).pc = t := rfl
@[simp] theorem State.setPc_sp (t : Byte) : (s.setPc t).sp = s.sp := rfl
@[simp] theorem State.setPc_flags (t : Byte) : (s.setPc t).flags = s.flags := rfl
@[simp] theorem State.setPc_out (t : Byte) : (s.setPc t).out = s.out := rfl
@[simp] theorem State.setPc_data (t : Byte) : (s.setPc t).data = s.data := rfl
@[simp] theorem State.setPc_stack (t : Byte) : (s.setPc t).stack = s.stack := rfl
@[simp] theorem State.setPc_progHigh (t : Byte) : (s.setPc t).progHigh = s.progHigh := rfl
@[simp] theorem State.setPc_progLow (t : Byte) : (s.setPc t).progLow = s.progLow := rfl
@[simp] theorem State.setPc_lcd (t : Byte) : (s.setPc t).lcd = s.lcd := rfl
@[simp] theorem State.setPc_halted (t : Byte) : (s.setPc t).halted = s.halted := rfl
@[simp] theorem State.setPc_draws (t : Byte) : (s.setPc t).draws = s.draws := rfl
@[simp] theorem State.setPc_reg (q : Reg) (t : Byte) : (s.setPc t).reg q = s.reg q := by
  cases q <;> rfl
@[simp] theorem State.setPc_dataByte (q : Byte) (t : Byte) :
    (s.setPc t).dataByte q = s.dataByte q := rfl
@[simp] theorem State.setPc_stackByte (q : Byte) (t : Byte) :
    (s.setPc t).stackByte q = s.stackByte q := rfl

/-! ### advance -/

@[simp] theorem State.advance_r0 : s.advance.r0 = s.r0 := rfl
@[simp] theorem State.advance_r1 : s.advance.r1 = s.r1 := rfl
@[simp] theorem State.advance_r2 : s.advance.r2 = s.r2 := rfl
@[simp] theorem State.advance_r3 : s.advance.r3 = s.r3 := rfl
@[simp] theorem State.advance_pc : s.advance.pc = s.nextPc := rfl
@[simp] theorem State.advance_sp : s.advance.sp = s.sp := rfl
@[simp] theorem State.advance_flags : s.advance.flags = s.flags := rfl
@[simp] theorem State.advance_out : s.advance.out = s.out := rfl
@[simp] theorem State.advance_data : s.advance.data = s.data := rfl
@[simp] theorem State.advance_stack : s.advance.stack = s.stack := rfl
@[simp] theorem State.advance_progHigh : s.advance.progHigh = s.progHigh := rfl
@[simp] theorem State.advance_progLow : s.advance.progLow = s.progLow := rfl
@[simp] theorem State.advance_lcd : s.advance.lcd = s.lcd := rfl
@[simp] theorem State.advance_halted : s.advance.halted = s.halted := rfl
@[simp] theorem State.advance_draws : s.advance.draws = s.draws := rfl
@[simp] theorem State.advance_reg (q : Reg) : s.advance.reg q = s.reg q := by
  cases q <;> rfl
@[simp] theorem State.advance_dataByte (q : Byte) :
    s.advance.dataByte q = s.dataByte q := rfl
@[simp] theorem State.advance_stackByte (q : Byte) :
    s.advance.stackByte q = s.stackByte q := rfl

/-! ### jumpIf -/

@[simp] theorem State.jumpIf_r0 (b : Bool) (t : Byte) : (s.jumpIf b t).r0 = s.r0 := rfl
@[simp] theorem State.jumpIf_r1 (b : Bool) (t : Byte) : (s.jumpIf b t).r1 = s.r1 := rfl
@[simp] theorem State.jumpIf_r2 (b : Bool) (t : Byte) : (s.jumpIf b t).r2 = s.r2 := rfl
@[simp] theorem State.jumpIf_r3 (b : Bool) (t : Byte) : (s.jumpIf b t).r3 = s.r3 := rfl
@[simp] theorem State.jumpIf_pc (b : Bool) (t : Byte) :
    (s.jumpIf b t).pc = if b then t else s.nextPc := rfl
@[simp] theorem State.jumpIf_sp (b : Bool) (t : Byte) : (s.jumpIf b t).sp = s.sp := rfl
@[simp] theorem State.jumpIf_flags (b : Bool) (t : Byte) : (s.jumpIf b t).flags = s.flags := rfl
@[simp] theorem State.jumpIf_out (b : Bool) (t : Byte) : (s.jumpIf b t).out = s.out := rfl
@[simp] theorem State.jumpIf_data (b : Bool) (t : Byte) : (s.jumpIf b t).data = s.data := rfl
@[simp] theorem State.jumpIf_stack (b : Bool) (t : Byte) : (s.jumpIf b t).stack = s.stack := rfl
@[simp] theorem State.jumpIf_progHigh (b : Bool) (t : Byte) :
    (s.jumpIf b t).progHigh = s.progHigh := rfl
@[simp] theorem State.jumpIf_progLow (b : Bool) (t : Byte) :
    (s.jumpIf b t).progLow = s.progLow := rfl
@[simp] theorem State.jumpIf_lcd (b : Bool) (t : Byte) : (s.jumpIf b t).lcd = s.lcd := rfl
@[simp] theorem State.jumpIf_halted (b : Bool) (t : Byte) : (s.jumpIf b t).halted = s.halted := rfl
@[simp] theorem State.jumpIf_draws (b : Bool) (t : Byte) : (s.jumpIf b t).draws = s.draws := rfl
@[simp] theorem State.jumpIf_reg (q : Reg) (b : Bool) (t : Byte) : (s.jumpIf b t).reg q = s.reg q := by
  cases q <;> rfl
@[simp] theorem State.jumpIf_dataByte (q : Byte) (b : Bool) (t : Byte) :
    (s.jumpIf b t).dataByte q = s.dataByte q := rfl
@[simp] theorem State.jumpIf_stackByte (q : Byte) (b : Bool) (t : Byte) :
    (s.jumpIf b t).stackByte q = s.stackByte q := rfl

/-! ### setFlags -/

@[simp] theorem State.setFlags_r0 (f : Flags) : (s.setFlags f).r0 = s.r0 := rfl
@[simp] theorem State.setFlags_r1 (f : Flags) : (s.setFlags f).r1 = s.r1 := rfl
@[simp] theorem State.setFlags_r2 (f : Flags) : (s.setFlags f).r2 = s.r2 := rfl
@[simp] theorem State.setFlags_r3 (f : Flags) : (s.setFlags f).r3 = s.r3 := rfl
@[simp] theorem State.setFlags_pc (f : Flags) : (s.setFlags f).pc = s.pc := rfl
@[simp] theorem State.setFlags_sp (f : Flags) : (s.setFlags f).sp = s.sp := rfl
@[simp] theorem State.setFlags_flags (f : Flags) : (s.setFlags f).flags = f := rfl
@[simp] theorem State.setFlags_out (f : Flags) : (s.setFlags f).out = s.out := rfl
@[simp] theorem State.setFlags_data (f : Flags) : (s.setFlags f).data = s.data := rfl
@[simp] theorem State.setFlags_stack (f : Flags) : (s.setFlags f).stack = s.stack := rfl
@[simp] theorem State.setFlags_progHigh (f : Flags) : (s.setFlags f).progHigh = s.progHigh := rfl
@[simp] theorem State.setFlags_progLow (f : Flags) : (s.setFlags f).progLow = s.progLow := rfl
@[simp] theorem State.setFlags_lcd (f : Flags) : (s.setFlags f).lcd = s.lcd := rfl
@[simp] theorem State.setFlags_halted (f : Flags) : (s.setFlags f).halted = s.halted := rfl
@[simp] theorem State.setFlags_draws (f : Flags) : (s.setFlags f).draws = s.draws := rfl
@[simp] theorem State.setFlags_reg (q : Reg) (f : Flags) : (s.setFlags f).reg q = s.reg q := by
  cases q <;> rfl
@[simp] theorem State.setFlags_dataByte (q : Byte) (f : Flags) :
    (s.setFlags f).dataByte q = s.dataByte q := rfl
@[simp] theorem State.setFlags_stackByte (q : Byte) (f : Flags) :
    (s.setFlags f).stackByte q = s.stackByte q := rfl
@[simp] theorem State.setFlags_nextPc (f : Flags) : (s.setFlags f).nextPc = s.nextPc := rfl

/-! ### draw -/

@[simp] theorem State.draw_r0 : s.draw.r0 = s.r0 := rfl
@[simp] theorem State.draw_r1 : s.draw.r1 = s.r1 := rfl
@[simp] theorem State.draw_r2 : s.draw.r2 = s.r2 := rfl
@[simp] theorem State.draw_r3 : s.draw.r3 = s.r3 := rfl
@[simp] theorem State.draw_pc : s.draw.pc = s.pc := rfl
@[simp] theorem State.draw_sp : s.draw.sp = s.sp := rfl
@[simp] theorem State.draw_flags : s.draw.flags = s.flags := rfl
@[simp] theorem State.draw_out : s.draw.out = s.out := rfl
@[simp] theorem State.draw_data : s.draw.data = s.data := rfl
@[simp] theorem State.draw_stack : s.draw.stack = s.stack := rfl
@[simp] theorem State.draw_progHigh : s.draw.progHigh = s.progHigh := rfl
@[simp] theorem State.draw_progLow : s.draw.progLow = s.progLow := rfl
@[simp] theorem State.draw_lcd : s.draw.lcd = s.lcd := rfl
@[simp] theorem State.draw_halted : s.draw.halted = s.halted := rfl
@[simp] theorem State.draw_draws : s.draw.draws = s.draws + 1 := rfl
@[simp] theorem State.draw_reg (q : Reg) : s.draw.reg q = s.reg q := by
  cases q <;> rfl
@[simp] theorem State.draw_dataByte (q : Byte) :
    s.draw.dataByte q = s.dataByte q := rfl
@[simp] theorem State.draw_stackByte (q : Byte) :
    s.draw.stackByte q = s.stackByte q := rfl
@[simp] theorem State.draw_nextPc : s.draw.nextPc = s.nextPc := rfl

/-! ### storeData -/

@[simp] theorem State.storeData_r0 (a v : Byte) : (s.storeData a v).r0 = s.r0 := rfl
@[simp] theorem State.storeData_r1 (a v : Byte) : (s.storeData a v).r1 = s.r1 := rfl
@[simp] theorem State.storeData_r2 (a v : Byte) : (s.storeData a v).r2 = s.r2 := rfl
@[simp] theorem State.storeData_r3 (a v : Byte) : (s.storeData a v).r3 = s.r3 := rfl
@[simp] theorem State.storeData_pc (a v : Byte) : (s.storeData a v).pc = s.pc := rfl
@[simp] theorem State.storeData_sp (a v : Byte) : (s.storeData a v).sp = s.sp := rfl
@[simp] theorem State.storeData_flags (a v : Byte) : (s.storeData a v).flags = s.flags := rfl
@[simp] theorem State.storeData_out (a v : Byte) : (s.storeData a v).out = s.out := rfl
@[simp] theorem State.storeData_data (a v : Byte) :
    (s.storeData a v).data = s.data.write a.toNat v := rfl
@[simp] theorem State.storeData_stack (a v : Byte) : (s.storeData a v).stack = s.stack := rfl
@[simp] theorem State.storeData_progHigh (a v : Byte) :
    (s.storeData a v).progHigh = s.progHigh := rfl
@[simp] theorem State.storeData_progLow (a v : Byte) : (s.storeData a v).progLow = s.progLow := rfl
@[simp] theorem State.storeData_lcd (a v : Byte) : (s.storeData a v).lcd = s.lcd := rfl
@[simp] theorem State.storeData_halted (a v : Byte) : (s.storeData a v).halted = s.halted := rfl
@[simp] theorem State.storeData_draws (a v : Byte) : (s.storeData a v).draws = s.draws := rfl
@[simp] theorem State.storeData_reg (q : Reg) (a v : Byte) : (s.storeData a v).reg q = s.reg q := by
  cases q <;> rfl
@[simp] theorem State.storeData_stackByte (q : Byte) (a v : Byte) :
    (s.storeData a v).stackByte q = s.stackByte q := rfl
@[simp] theorem State.storeData_nextPc (a v : Byte) : (s.storeData a v).nextPc = s.nextPc := rfl

/-! ### storeStack -/

@[simp] theorem State.storeStack_r0 (a v : Byte) : (s.storeStack a v).r0 = s.r0 := rfl
@[simp] theorem State.storeStack_r1 (a v : Byte) : (s.storeStack a v).r1 = s.r1 := rfl
@[simp] theorem State.storeStack_r2 (a v : Byte) : (s.storeStack a v).r2 = s.r2 := rfl
@[simp] theorem State.storeStack_r3 (a v : Byte) : (s.storeStack a v).r3 = s.r3 := rfl
@[simp] theorem State.storeStack_pc (a v : Byte) : (s.storeStack a v).pc = s.pc := rfl
@[simp] theorem State.storeStack_sp (a v : Byte) : (s.storeStack a v).sp = s.sp := rfl
@[simp] theorem State.storeStack_flags (a v : Byte) : (s.storeStack a v).flags = s.flags := rfl
@[simp] theorem State.storeStack_out (a v : Byte) : (s.storeStack a v).out = s.out := rfl
@[simp] theorem State.storeStack_data (a v : Byte) : (s.storeStack a v).data = s.data := rfl
@[simp] theorem State.storeStack_stack (a v : Byte) :
    (s.storeStack a v).stack = s.stack.write a.toNat v := rfl
@[simp] theorem State.storeStack_progHigh (a v : Byte) :
    (s.storeStack a v).progHigh = s.progHigh := rfl
@[simp] theorem State.storeStack_progLow (a v : Byte) :
    (s.storeStack a v).progLow = s.progLow := rfl
@[simp] theorem State.storeStack_lcd (a v : Byte) : (s.storeStack a v).lcd = s.lcd := rfl
@[simp] theorem State.storeStack_halted (a v : Byte) : (s.storeStack a v).halted = s.halted := rfl
@[simp] theorem State.storeStack_draws (a v : Byte) : (s.storeStack a v).draws = s.draws := rfl
@[simp] theorem State.storeStack_reg (q : Reg) (a v : Byte) : (s.storeStack a v).reg q = s.reg q := by
  cases q <;> rfl
@[simp] theorem State.storeStack_dataByte (q : Byte) (a v : Byte) :
    (s.storeStack a v).dataByte q = s.dataByte q := rfl
@[simp] theorem State.storeStack_nextPc (a v : Byte) : (s.storeStack a v).nextPc = s.nextPc := rfl

/-! ### setSp -/

@[simp] theorem State.setSp_r0 (v : Byte) : (s.setSp v).r0 = s.r0 := rfl
@[simp] theorem State.setSp_r1 (v : Byte) : (s.setSp v).r1 = s.r1 := rfl
@[simp] theorem State.setSp_r2 (v : Byte) : (s.setSp v).r2 = s.r2 := rfl
@[simp] theorem State.setSp_r3 (v : Byte) : (s.setSp v).r3 = s.r3 := rfl
@[simp] theorem State.setSp_pc (v : Byte) : (s.setSp v).pc = s.pc := rfl
@[simp] theorem State.setSp_sp (v : Byte) : (s.setSp v).sp = v := rfl
@[simp] theorem State.setSp_flags (v : Byte) : (s.setSp v).flags = s.flags := rfl
@[simp] theorem State.setSp_out (v : Byte) : (s.setSp v).out = s.out := rfl
@[simp] theorem State.setSp_data (v : Byte) : (s.setSp v).data = s.data := rfl
@[simp] theorem State.setSp_stack (v : Byte) : (s.setSp v).stack = s.stack := rfl
@[simp] theorem State.setSp_progHigh (v : Byte) : (s.setSp v).progHigh = s.progHigh := rfl
@[simp] theorem State.setSp_progLow (v : Byte) : (s.setSp v).progLow = s.progLow := rfl
@[simp] theorem State.setSp_lcd (v : Byte) : (s.setSp v).lcd = s.lcd := rfl
@[simp] theorem State.setSp_halted (v : Byte) : (s.setSp v).halted = s.halted := rfl
@[simp] theorem State.setSp_draws (v : Byte) : (s.setSp v).draws = s.draws := rfl
@[simp] theorem State.setSp_reg (q : Reg) (v : Byte) : (s.setSp v).reg q = s.reg q := by
  cases q <;> rfl
@[simp] theorem State.setSp_dataByte (q : Byte) (v : Byte) :
    (s.setSp v).dataByte q = s.dataByte q := rfl
@[simp] theorem State.setSp_stackByte (q : Byte) (v : Byte) :
    (s.setSp v).stackByte q = s.stackByte q := rfl
@[simp] theorem State.setSp_nextPc (v : Byte) : (s.setSp v).nextPc = s.nextPc := rfl

/-! ### push -/

@[simp] theorem State.push_r0 (v : Byte) : (s.push v).r0 = s.r0 := rfl
@[simp] theorem State.push_r1 (v : Byte) : (s.push v).r1 = s.r1 := rfl
@[simp] theorem State.push_r2 (v : Byte) : (s.push v).r2 = s.r2 := rfl
@[simp] theorem State.push_r3 (v : Byte) : (s.push v).r3 = s.r3 := rfl
@[simp] theorem State.push_pc (v : Byte) : (s.push v).pc = s.pc := rfl
@[simp] theorem State.push_sp (v : Byte) : (s.push v).sp = s.sp - 1 := rfl
@[simp] theorem State.push_flags (v : Byte) : (s.push v).flags = s.flags := rfl
@[simp] theorem State.push_out (v : Byte) : (s.push v).out = s.out := rfl
@[simp] theorem State.push_data (v : Byte) : (s.push v).data = s.data := rfl
@[simp] theorem State.push_stack (v : Byte) :
    (s.push v).stack = s.stack.write s.pushAddr.toNat v := rfl
@[simp] theorem State.push_progHigh (v : Byte) : (s.push v).progHigh = s.progHigh := rfl
@[simp] theorem State.push_progLow (v : Byte) : (s.push v).progLow = s.progLow := rfl
@[simp] theorem State.push_lcd (v : Byte) : (s.push v).lcd = s.lcd := rfl
@[simp] theorem State.push_halted (v : Byte) : (s.push v).halted = s.halted := rfl
@[simp] theorem State.push_draws (v : Byte) : (s.push v).draws = s.draws := rfl
@[simp] theorem State.push_reg (q : Reg) (v : Byte) : (s.push v).reg q = s.reg q := by
  cases q <;> rfl
@[simp] theorem State.push_dataByte (q : Byte) (v : Byte) :
    (s.push v).dataByte q = s.dataByte q := rfl
@[simp] theorem State.push_nextPc (v : Byte) : (s.push v).nextPc = s.nextPc := rfl

/-! ### dropTop -/

@[simp] theorem State.dropTop_r0 : s.dropTop.r0 = s.r0 := rfl
@[simp] theorem State.dropTop_r1 : s.dropTop.r1 = s.r1 := rfl
@[simp] theorem State.dropTop_r2 : s.dropTop.r2 = s.r2 := rfl
@[simp] theorem State.dropTop_r3 : s.dropTop.r3 = s.r3 := rfl
@[simp] theorem State.dropTop_pc : s.dropTop.pc = s.pc := rfl
@[simp] theorem State.dropTop_sp : s.dropTop.sp = s.sp + 1 := rfl
@[simp] theorem State.dropTop_flags : s.dropTop.flags = s.flags := rfl
@[simp] theorem State.dropTop_out : s.dropTop.out = s.out := rfl
@[simp] theorem State.dropTop_data : s.dropTop.data = s.data := rfl
@[simp] theorem State.dropTop_stack : s.dropTop.stack = s.stack := rfl
@[simp] theorem State.dropTop_progHigh : s.dropTop.progHigh = s.progHigh := rfl
@[simp] theorem State.dropTop_progLow : s.dropTop.progLow = s.progLow := rfl
@[simp] theorem State.dropTop_lcd : s.dropTop.lcd = s.lcd := rfl
@[simp] theorem State.dropTop_halted : s.dropTop.halted = s.halted := rfl
@[simp] theorem State.dropTop_draws : s.dropTop.draws = s.draws := rfl
@[simp] theorem State.dropTop_reg (q : Reg) : s.dropTop.reg q = s.reg q := by
  cases q <;> rfl
@[simp] theorem State.dropTop_dataByte (q : Byte) :
    s.dropTop.dataByte q = s.dataByte q := rfl
@[simp] theorem State.dropTop_stackByte (q : Byte) :
    s.dropTop.stackByte q = s.stackByte q := rfl
@[simp] theorem State.dropTop_nextPc : s.dropTop.nextPc = s.nextPc := rfl

/-! ### setTop -/

@[simp] theorem State.setTop_r0 (v : Byte) : (s.setTop v).r0 = s.r0 := rfl
@[simp] theorem State.setTop_r1 (v : Byte) : (s.setTop v).r1 = s.r1 := rfl
@[simp] theorem State.setTop_r2 (v : Byte) : (s.setTop v).r2 = s.r2 := rfl
@[simp] theorem State.setTop_r3 (v : Byte) : (s.setTop v).r3 = s.r3 := rfl
@[simp] theorem State.setTop_pc (v : Byte) : (s.setTop v).pc = s.pc := rfl
@[simp] theorem State.setTop_sp (v : Byte) : (s.setTop v).sp = s.sp := rfl
@[simp] theorem State.setTop_flags (v : Byte) : (s.setTop v).flags = s.flags := rfl
@[simp] theorem State.setTop_out (v : Byte) : (s.setTop v).out = s.out := rfl
@[simp] theorem State.setTop_data (v : Byte) : (s.setTop v).data = s.data := rfl
@[simp] theorem State.setTop_stack (v : Byte) :
    (s.setTop v).stack = s.stack.write s.topAddr.toNat v := rfl
@[simp] theorem State.setTop_progHigh (v : Byte) : (s.setTop v).progHigh = s.progHigh := rfl
@[simp] theorem State.setTop_progLow (v : Byte) : (s.setTop v).progLow = s.progLow := rfl
@[simp] theorem State.setTop_lcd (v : Byte) : (s.setTop v).lcd = s.lcd := rfl
@[simp] theorem State.setTop_halted (v : Byte) : (s.setTop v).halted = s.halted := rfl
@[simp] theorem State.setTop_draws (v : Byte) : (s.setTop v).draws = s.draws := rfl
@[simp] theorem State.setTop_reg (q : Reg) (v : Byte) : (s.setTop v).reg q = s.reg q := by
  cases q <;> rfl
@[simp] theorem State.setTop_dataByte (q : Byte) (v : Byte) :
    (s.setTop v).dataByte q = s.dataByte q := rfl
@[simp] theorem State.setTop_nextPc (v : Byte) : (s.setTop v).nextPc = s.nextPc := rfl

/-! ### lcdSend -/

@[simp] theorem State.lcdSend_r0 (k : LcdKind) (v : Byte) : (s.lcdSend k v).r0 = s.r0 := rfl
@[simp] theorem State.lcdSend_r1 (k : LcdKind) (v : Byte) : (s.lcdSend k v).r1 = s.r1 := rfl
@[simp] theorem State.lcdSend_r2 (k : LcdKind) (v : Byte) : (s.lcdSend k v).r2 = s.r2 := rfl
@[simp] theorem State.lcdSend_r3 (k : LcdKind) (v : Byte) : (s.lcdSend k v).r3 = s.r3 := rfl
@[simp] theorem State.lcdSend_pc (k : LcdKind) (v : Byte) : (s.lcdSend k v).pc = s.pc := rfl
@[simp] theorem State.lcdSend_sp (k : LcdKind) (v : Byte) : (s.lcdSend k v).sp = s.sp := rfl
@[simp] theorem State.lcdSend_flags (k : LcdKind) (v : Byte) :
    (s.lcdSend k v).flags = s.flags := rfl
@[simp] theorem State.lcdSend_out (k : LcdKind) (v : Byte) : (s.lcdSend k v).out = s.out := rfl
@[simp] theorem State.lcdSend_data (k : LcdKind) (v : Byte) : (s.lcdSend k v).data = s.data := rfl
@[simp] theorem State.lcdSend_stack (k : LcdKind) (v : Byte) :
    (s.lcdSend k v).stack = s.stack := rfl
@[simp] theorem State.lcdSend_progHigh (k : LcdKind) (v : Byte) :
    (s.lcdSend k v).progHigh = s.progHigh := rfl
@[simp] theorem State.lcdSend_progLow (k : LcdKind) (v : Byte) :
    (s.lcdSend k v).progLow = s.progLow := rfl
@[simp] theorem State.lcdSend_lcd (k : LcdKind) (v : Byte) :
    (s.lcdSend k v).lcd = s.lcd ++ [⟨k, v⟩] := rfl
@[simp] theorem State.lcdSend_halted (k : LcdKind) (v : Byte) :
    (s.lcdSend k v).halted = s.halted := rfl
@[simp] theorem State.lcdSend_draws (k : LcdKind) (v : Byte) :
    (s.lcdSend k v).draws = s.draws := rfl
@[simp] theorem State.lcdSend_reg (q : Reg) (k : LcdKind) (v : Byte) : (s.lcdSend k v).reg q = s.reg q := by
  cases q <;> rfl
@[simp] theorem State.lcdSend_dataByte (q : Byte) (k : LcdKind) (v : Byte) :
    (s.lcdSend k v).dataByte q = s.dataByte q := rfl
@[simp] theorem State.lcdSend_stackByte (q : Byte) (k : LcdKind) (v : Byte) :
    (s.lcdSend k v).stackByte q = s.stackByte q := rfl
@[simp] theorem State.lcdSend_nextPc (k : LcdKind) (v : Byte) : (s.lcdSend k v).nextPc = s.nextPc := rfl

/-! ### setOut -/

@[simp] theorem State.setOut_r0 (v : Byte) : (s.setOut v).r0 = s.r0 := rfl
@[simp] theorem State.setOut_r1 (v : Byte) : (s.setOut v).r1 = s.r1 := rfl
@[simp] theorem State.setOut_r2 (v : Byte) : (s.setOut v).r2 = s.r2 := rfl
@[simp] theorem State.setOut_r3 (v : Byte) : (s.setOut v).r3 = s.r3 := rfl
@[simp] theorem State.setOut_pc (v : Byte) : (s.setOut v).pc = s.pc := rfl
@[simp] theorem State.setOut_sp (v : Byte) : (s.setOut v).sp = s.sp := rfl
@[simp] theorem State.setOut_flags (v : Byte) : (s.setOut v).flags = s.flags := rfl
@[simp] theorem State.setOut_out (v : Byte) : (s.setOut v).out = v := rfl
@[simp] theorem State.setOut_data (v : Byte) : (s.setOut v).data = s.data := rfl
@[simp] theorem State.setOut_stack (v : Byte) : (s.setOut v).stack = s.stack := rfl
@[simp] theorem State.setOut_progHigh (v : Byte) : (s.setOut v).progHigh = s.progHigh := rfl
@[simp] theorem State.setOut_progLow (v : Byte) : (s.setOut v).progLow = s.progLow := rfl
@[simp] theorem State.setOut_lcd (v : Byte) : (s.setOut v).lcd = s.lcd := rfl
@[simp] theorem State.setOut_halted (v : Byte) : (s.setOut v).halted = s.halted := rfl
@[simp] theorem State.setOut_draws (v : Byte) : (s.setOut v).draws = s.draws := rfl
@[simp] theorem State.setOut_reg (q : Reg) (v : Byte) : (s.setOut v).reg q = s.reg q := by
  cases q <;> rfl
@[simp] theorem State.setOut_dataByte (q : Byte) (v : Byte) :
    (s.setOut v).dataByte q = s.dataByte q := rfl
@[simp] theorem State.setOut_stackByte (q : Byte) (v : Byte) :
    (s.setOut v).stackByte q = s.stackByte q := rfl
@[simp] theorem State.setOut_nextPc (v : Byte) : (s.setOut v).nextPc = s.nextPc := rfl

/-! ### halt -/

@[simp] theorem State.halt_r0 : s.halt.r0 = s.r0 := rfl
@[simp] theorem State.halt_r1 : s.halt.r1 = s.r1 := rfl
@[simp] theorem State.halt_r2 : s.halt.r2 = s.r2 := rfl
@[simp] theorem State.halt_r3 : s.halt.r3 = s.r3 := rfl
@[simp] theorem State.halt_pc : s.halt.pc = s.pc := rfl
@[simp] theorem State.halt_sp : s.halt.sp = s.sp := rfl
@[simp] theorem State.halt_flags : s.halt.flags = s.flags := rfl
@[simp] theorem State.halt_out : s.halt.out = s.out := rfl
@[simp] theorem State.halt_data : s.halt.data = s.data := rfl
@[simp] theorem State.halt_stack : s.halt.stack = s.stack := rfl
@[simp] theorem State.halt_progHigh : s.halt.progHigh = s.progHigh := rfl
@[simp] theorem State.halt_progLow : s.halt.progLow = s.progLow := rfl
@[simp] theorem State.halt_lcd : s.halt.lcd = s.lcd := rfl
@[simp] theorem State.halt_halted : s.halt.halted = true := rfl
@[simp] theorem State.halt_draws : s.halt.draws = s.draws := rfl
@[simp] theorem State.halt_reg (q : Reg) : s.halt.reg q = s.reg q := by
  cases q <;> rfl
@[simp] theorem State.halt_dataByte (q : Byte) :
    s.halt.dataByte q = s.dataByte q := rfl
@[simp] theorem State.halt_stackByte (q : Byte) :
    s.halt.stackByte q = s.stackByte q := rfl
@[simp] theorem State.halt_nextPc : s.halt.nextPc = s.nextPc := rfl

/-! ### placeWord -/

@[simp] theorem State.placeWord_r0 (a : Byte) (w : Byte × Byte) : (s.placeWord a w).r0 = s.r0 := rfl
@[simp] theorem State.placeWord_r1 (a : Byte) (w : Byte × Byte) : (s.placeWord a w).r1 = s.r1 := rfl
@[simp] theorem State.placeWord_r2 (a : Byte) (w : Byte × Byte) : (s.placeWord a w).r2 = s.r2 := rfl
@[simp] theorem State.placeWord_r3 (a : Byte) (w : Byte × Byte) : (s.placeWord a w).r3 = s.r3 := rfl
@[simp] theorem State.placeWord_pc (a : Byte) (w : Byte × Byte) : (s.placeWord a w).pc = s.pc := rfl
@[simp] theorem State.placeWord_sp (a : Byte) (w : Byte × Byte) : (s.placeWord a w).sp = s.sp := rfl
@[simp] theorem State.placeWord_flags (a : Byte) (w : Byte × Byte) :
    (s.placeWord a w).flags = s.flags := rfl
@[simp] theorem State.placeWord_out (a : Byte) (w : Byte × Byte) :
    (s.placeWord a w).out = s.out := rfl
@[simp] theorem State.placeWord_data (a : Byte) (w : Byte × Byte) :
    (s.placeWord a w).data = s.data := rfl
@[simp] theorem State.placeWord_stack (a : Byte) (w : Byte × Byte) :
    (s.placeWord a w).stack = s.stack := rfl
@[simp] theorem State.placeWord_progHigh (a : Byte) (w : Byte × Byte) :
    (s.placeWord a w).progHigh = s.progHigh.write a.toNat w.1 := rfl
@[simp] theorem State.placeWord_progLow (a : Byte) (w : Byte × Byte) :
    (s.placeWord a w).progLow = s.progLow.write a.toNat w.2 := rfl
@[simp] theorem State.placeWord_lcd (a : Byte) (w : Byte × Byte) :
    (s.placeWord a w).lcd = s.lcd := rfl
@[simp] theorem State.placeWord_halted (a : Byte) (w : Byte × Byte) :
    (s.placeWord a w).halted = s.halted := rfl
@[simp] theorem State.placeWord_draws (a : Byte) (w : Byte × Byte) :
    (s.placeWord a w).draws = s.draws := rfl
@[simp] theorem State.placeWord_reg (q : Reg) (a : Byte) (w : Byte × Byte) : (s.placeWord a w).reg q = s.reg q := by
  cases q <;> rfl
@[simp] theorem State.placeWord_dataByte (q : Byte) (a : Byte) (w : Byte × Byte) :
    (s.placeWord a w).dataByte q = s.dataByte q := rfl
@[simp] theorem State.placeWord_stackByte (q : Byte) (a : Byte) (w : Byte × Byte) :
    (s.placeWord a w).stackByte q = s.stackByte q := rfl
@[simp] theorem State.placeWord_nextPc (a : Byte) (w : Byte × Byte) : (s.placeWord a w).nextPc = s.nextPc := rfl

end Sys2Proof.Machine
end

