-- ==== Sys2Proof/Laws/Memory.lean ====
section
/-! SUPPORT. The laws of one bank of memory: read after write, the canonical form, and that two
canonical banks with the same contents are equal; then the same for the bytes of a state. -/

namespace Sys2Proof.Machine

@[simp] theorem Memory.read_write_same (m : Memory) (a : Nat) (v : Byte) :
    (m.write a v).read a = some v := by
  induction m with
  | nil => simp [Memory.write, Memory.read]
  | cons c m ih =>
    obtain ⟨b, w⟩ := c
    unfold Memory.write
    split
    · simp [Memory.read]
    · split
      · simp [Memory.read]
      · rename_i h
        simp only [Memory.read, if_neg h, ih]

theorem Memory.read_write_other (m : Memory) (a q : Nat) (v : Byte) (h : q ≠ a) :
    (m.write a v).read q = m.read q := by
  induction m with
  | nil => simp [Memory.write, Memory.read, h]
  | cons c m ih =>
    obtain ⟨b, w⟩ := c
    unfold Memory.write
    split
    · simp [Memory.read, h]
    · split
      · rename_i hab
        simp [Memory.read, h, ← hab]
      · simp only [Memory.read, ih]

theorem Memory.read_write (m : Memory) (a q : Nat) (v : Byte) :
    (m.write a v).read q = if q = a then some v else m.read q := by
  split
  · rename_i h; rw [h, Memory.read_write_same]
  · rename_i h; exact Memory.read_write_other m a q v h

theorem Memory.wfFrom_write (m : Memory) (lo a : Nat) (v : Byte) (hlo : lo ≤ a) (ha : a < 256)
    (h : Memory.wfFrom lo m = true) : Memory.wfFrom lo (m.write a v) = true := by
  induction m generalizing lo with
  | nil => simp [Memory.write, Memory.wfFrom, hlo, ha]
  | cons c m ih =>
    obtain ⟨b, w⟩ := c
    simp only [Memory.wfFrom, Bool.and_eq_true, decide_eq_true_eq] at h
    obtain ⟨⟨hb, hb'⟩, hm⟩ := h
    unfold Memory.write
    split
    · rename_i hab
      simp only [Memory.wfFrom, Bool.and_eq_true, decide_eq_true_eq]
      exact ⟨⟨hlo, ha⟩, ⟨hab, hb'⟩, hm⟩
    · split
      · rename_i hab
        subst hab
        simp only [Memory.wfFrom, Bool.and_eq_true, decide_eq_true_eq]
        exact ⟨⟨hlo, ha⟩, hm⟩
      · simp only [Memory.wfFrom, Bool.and_eq_true, decide_eq_true_eq]
        exact ⟨⟨hb, hb'⟩, ih (b + 1) (by omega) hm⟩

/-- A write at an address of the bank keeps the canonical form. -/
theorem Memory.wf_write (m : Memory) (a : Byte) (v : Byte) (h : m.wf = true) :
    (m.write a.toNat v).wf = true :=
  Memory.wfFrom_write m 0 a.toNat v (Nat.zero_le _) a.isLt h

theorem Memory.read_below (m : Memory) (lo a : Nat) (h : Memory.wfFrom lo m = true) (ha : a < lo) :
    m.read a = none := by
  induction m generalizing lo with
  | nil => rfl
  | cons c m ih =>
    obtain ⟨b, w⟩ := c
    simp only [Memory.wfFrom, Bool.and_eq_true, decide_eq_true_eq] at h
    have hab : a ≠ b := by omega
    simp only [Memory.read, if_neg hab]
    exact ih (b + 1) h.2 (by omega)

theorem Memory.ext_from (m n : Memory) (lo : Nat) (hm : Memory.wfFrom lo m = true)
    (hn : Memory.wfFrom lo n = true) (h : ∀ a, m.read a = n.read a) : m = n := by
  induction m generalizing n lo with
  | nil =>
    cases n with
    | nil => rfl
    | cons c n =>
      have := h c.1
      simp [Memory.read] at this
  | cons c m ih =>
    obtain ⟨b, w⟩ := c
    cases n with
    | nil =>
      have := h b
      simp [Memory.read] at this
    | cons d n =>
      obtain ⟨b', w'⟩ := d
      simp only [Memory.wfFrom, Bool.and_eq_true, decide_eq_true_eq] at hm hn
      have hbb : b = b' := by
        rcases Nat.lt_trichotomy b b' with hlt | heq | hgt
        · have h1 := h b
          rw [Memory.read, if_pos rfl, Memory.read, if_neg (by omega),
            Memory.read_below n (b' + 1) b hn.2 (by omega)] at h1
          cases h1
        · exact heq
        · have h1 := h b'
          rw [Memory.read, if_neg (by omega), Memory.read_below m (b + 1) b' hm.2 (by omega),
            Memory.read, if_pos rfl] at h1
          cases h1
      subst hbb
      have hw : w = w' := by
        have h1 := h b
        simpa [Memory.read] using h1
      subst hw
      congr 1
      refine ih n (b + 1) hm.2 hn.2 fun a => ?_
      by_cases hab : a = b
      · subst hab
        rw [Memory.read_below m (a + 1) a hm.2 (by omega),
          Memory.read_below n (a + 1) a hn.2 (by omega)]
      · have h1 := h a
        simpa [Memory.read, hab] using h1

/-- Canonical banks with the same contents are equal data. -/
theorem Memory.ext (m n : Memory) (hm : m.wf = true) (hn : n.wf = true)
    (h : ∀ a, m.read a = n.read a) : m = n :=
  Memory.ext_from m n 0 hm hn h

/-! ### The bytes of a state -/

@[simp] theorem State.storeData_dataByte_same (s : State) (a v : Byte) :
    (s.storeData a v).dataByte a = v := by
  simp [State.dataByte, State.storeData]

theorem State.storeData_dataByte (s : State) (a v q : Byte) :
    (s.storeData a v).dataByte q = if q = a then v else s.dataByte q := by
  by_cases h : q = a
  · subst h; simp
  · have hn : q.toNat ≠ a.toNat := fun e => h (BitVec.eq_of_toNat_eq e)
    rw [if_neg h]
    simp [State.dataByte, State.storeData, Memory.read_write_other _ _ _ _ hn]

@[simp] theorem State.storeStack_stackByte_same (s : State) (a v : Byte) :
    (s.storeStack a v).stackByte a = v := by
  simp [State.stackByte, State.storeStack]

theorem State.storeStack_stackByte (s : State) (a v q : Byte) :
    (s.storeStack a v).stackByte q = if q = a then v else s.stackByte q := by
  by_cases h : q = a
  · subst h; simp
  · have hn : q.toNat ≠ a.toNat := fun e => h (BitVec.eq_of_toNat_eq e)
    rw [if_neg h]
    simp [State.stackByte, State.storeStack, Memory.read_write_other _ _ _ _ hn]

/-- A push writes the cell at SP and no other. -/
theorem State.push_stackByte (s : State) (v q : Byte) :
    (s.push v).stackByte q = if q = s.sp then v else s.stackByte q := by
  simp only [State.push, State.setSp_stackByte, State.storeStack_stackByte, State.pushAddr]

/-- Replacing the top writes the top cell and no other. -/
theorem State.setTop_stackByte (s : State) (v q : Byte) :
    (s.setTop v).stackByte q = if q = s.topAddr then v else s.stackByte q := by
  simp only [State.setTop, State.storeStack_stackByte]

end Sys2Proof.Machine
end

