-- ==== Sys2Proof/Laws/Ops.lean ====
section
/-! SUPPORT. One lemma per shared operation that says once everything it does, the canonical form
kept by every update, and the ways a step can answer. -/

namespace Sys2Proof.Machine

variable (s : State)

/-! ### The ALU -/

@[simp] theorem aluOut_result (r : Byte) (c v : Bool) : (aluOut r c v).result = r := rfl
@[simp] theorem aluOut_flags (r : Byte) (c v : Bool) : (aluOut r c v).flags = flagsOf r c v := rfl
@[simp] theorem flagsOf_z (r : Byte) (c v : Bool) : (flagsOf r c v).z = zeroOf r := rfl
@[simp] theorem flagsOf_c (r : Byte) (c v : Bool) : (flagsOf r c v).c = c := rfl
@[simp] theorem flagsOf_v (r : Byte) (c v : Bool) : (flagsOf r c v).v = v := rfl
@[simp] theorem flagsOf_s (r : Byte) (c v : Bool) : (flagsOf r c v).s = signOf r := rfl

/-- Every function takes Z and S from its result byte. -/
theorem alu_zero_sign (f : Funct) (a b : Byte) (cin u : Bool) :
    (alu f a b cin u).flags.z = zeroOf (alu f a b cin u).result ∧
    (alu f a b cin u).flags.s = signOf (alu f a b cin u).result := by
  cases f <;> exact ⟨rfl, rfl⟩

/-- Only the functions that leave V undefined look at the free value. -/
theorem alu_defined_v (f : Funct) (a b : Byte) (cin u w : Bool) (h : leavesVUndefined f = false) :
    alu f a b cin u = alu f a b cin w := by
  cases f <;> first | rfl | cases h

/-- The functions that leave V undefined take V from the free value. -/
theorem alu_undefined_v (f : Funct) (a b : Byte) (cin u : Bool) (h : leavesVUndefined f = true) :
    (alu f a b cin u).flags.v = u := by
  cases f <;> first | rfl | cases h

@[simp] theorem aluFlags_r0 (f : Funct) (a b : Byte) : (aluFlags s f a b).r0 = s.r0 := by
  unfold aluFlags; split <;> rfl
@[simp] theorem aluFlags_r1 (f : Funct) (a b : Byte) : (aluFlags s f a b).r1 = s.r1 := by
  unfold aluFlags; split <;> rfl
@[simp] theorem aluFlags_r2 (f : Funct) (a b : Byte) : (aluFlags s f a b).r2 = s.r2 := by
  unfold aluFlags; split <;> rfl
@[simp] theorem aluFlags_r3 (f : Funct) (a b : Byte) : (aluFlags s f a b).r3 = s.r3 := by
  unfold aluFlags; split <;> rfl
@[simp] theorem aluFlags_pc (f : Funct) (a b : Byte) : (aluFlags s f a b).pc = s.pc := by
  unfold aluFlags; split <;> rfl
@[simp] theorem aluFlags_sp (f : Funct) (a b : Byte) : (aluFlags s f a b).sp = s.sp := by
  unfold aluFlags; split <;> rfl
@[simp] theorem aluFlags_out (f : Funct) (a b : Byte) : (aluFlags s f a b).out = s.out := by
  unfold aluFlags; split <;> rfl
@[simp] theorem aluFlags_data (f : Funct) (a b : Byte) : (aluFlags s f a b).data = s.data := by
  unfold aluFlags; split <;> rfl
@[simp] theorem aluFlags_stack (f : Funct) (a b : Byte) : (aluFlags s f a b).stack = s.stack := by
  unfold aluFlags; split <;> rfl
@[simp] theorem aluFlags_progHigh (f : Funct) (a b : Byte) : (aluFlags s f a b).progHigh = s.progHigh := by
  unfold aluFlags; split <;> rfl
@[simp] theorem aluFlags_progLow (f : Funct) (a b : Byte) : (aluFlags s f a b).progLow = s.progLow := by
  unfold aluFlags; split <;> rfl
@[simp] theorem aluFlags_lcd (f : Funct) (a b : Byte) : (aluFlags s f a b).lcd = s.lcd := by
  unfold aluFlags; split <;> rfl
@[simp] theorem aluFlags_halted (f : Funct) (a b : Byte) : (aluFlags s f a b).halted = s.halted := by
  unfold aluFlags; split <;> rfl
@[simp] theorem aluFlags_flags (f : Funct) (a b : Byte) :
    (aluFlags s f a b).flags = (aluIn s f a b).flags := by
  unfold aluFlags; split <;> rfl
theorem aluFlags_draws (f : Funct) (a b : Byte) :
    (aluFlags s f a b).draws = if leavesVUndefined f then s.draws + 1 else s.draws := by
  unfold aluFlags; split <;> rfl
@[simp] theorem aluFlags_reg (f : Funct) (a b : Byte) (q : Reg) :
    (aluFlags s f a b).reg q = s.reg q := by
  unfold aluFlags; split <;> simp
@[simp] theorem aluFlags_dataByte (f : Funct) (a b q : Byte) :
    (aluFlags s f a b).dataByte q = s.dataByte q := by
  unfold aluFlags; split <;> rfl
@[simp] theorem aluFlags_stackByte (f : Funct) (a b q : Byte) :
    (aluFlags s f a b).stackByte q = s.stackByte q := by
  unfold aluFlags; split <;> rfl
@[simp] theorem aluFlags_nextPc (f : Funct) (a b : Byte) :
    (aluFlags s f a b).nextPc = s.nextPc := by
  unfold aluFlags; split <;> rfl

/-- Everything an ALU operation with a destination does. -/
theorem aluToReg_spec {s t : State} {f : Funct} {rd : Reg} {a b : Byte}
    (h : aluToReg s f rd a b = .next t) :
    t.reg rd = (aluIn s f a b).result ∧ (∀ q, q ≠ rd → t.reg q = s.reg q) ∧
    t.flags = (aluIn s f a b).flags ∧ t.pc = s.nextPc ∧ t.sp = s.sp ∧ t.out = s.out ∧
    t.data = s.data ∧ t.stack = s.stack ∧ t.progHigh = s.progHigh ∧ t.progLow = s.progLow ∧
    t.lcd = s.lcd ∧ t.halted = s.halted ∧
    t.draws = if leavesVUndefined f then s.draws + 1 else s.draws := by
  unfold aluToReg at h
  cases h
  refine ⟨by simp, fun q hq => ?_, ?_⟩
  · rw [State.advance_reg, State.setReg_reg_other _ _ _ _ hq, aluFlags_reg]
  · simp [aluFlags_draws]

/-- Everything a compare operation does. -/
theorem aluCompare_spec {s t : State} {f : Funct} {a b : Byte} (h : aluCompare s f a b = .next t) :
    (∀ q, t.reg q = s.reg q) ∧ t.flags = (aluIn s f a b).flags ∧ t.pc = s.nextPc ∧ t.sp = s.sp ∧
    t.out = s.out ∧ t.data = s.data ∧ t.stack = s.stack ∧ t.progHigh = s.progHigh ∧
    t.progLow = s.progLow ∧ t.lcd = s.lcd ∧ t.halted = s.halted ∧
    t.draws = if leavesVUndefined f then s.draws + 1 else s.draws := by
  unfold aluCompare at h
  cases h
  simp [aluFlags_draws]

/-- Everything a conditional jump does: PC is the target or the next address, and nothing else
changes. -/
theorem jumpOn_spec {s t : State} {cond : Bool} {addr : Byte} (h : jumpOn cond addr s = .next t) :
    t = s.setPc (if cond then addr else s.nextPc) := by
  unfold jumpOn at h
  cases h
  rfl

/-! ### The stack -/

/-- A pop after a push returns the pushed byte. -/
theorem State.push_top (v : Byte) : (s.push v).top = v := by
  have h : (s.push v).topAddr = s.sp := by
    simp [State.topAddr]
  rw [State.top, h, State.push_stackByte, if_pos rfl]

/-- A pop after a push restores SP. -/
theorem State.push_dropTop_sp (v : Byte) : (s.push v).dropTop.sp = s.sp := by
  simp

/-! ### Fetching -/

/-- A word placed at PC is the word fetched. -/
theorem State.placeWord_fetch (w : Byte × Byte) : (s.placeWord s.pc w).fetch = some w := by
  simp [State.fetch]

/-! ### Canonical form of the banks -/

theorem State.banksWf_iff :
    s.banksWf = true ↔
      s.data.wf = true ∧ s.stack.wf = true ∧ s.progHigh.wf = true ∧ s.progLow.wf = true := by
  simp [State.banksWf, Bool.and_eq_true, and_assoc]

theorem State.banksWf_of_same {s t : State} (hd : t.data = s.data) (hs : t.stack = s.stack)
    (hh : t.progHigh = s.progHigh) (hl : t.progLow = s.progLow) : t.banksWf = s.banksWf := by
  simp [State.banksWf, hd, hs, hh, hl]

theorem State.reset_banksWf : State.reset.banksWf = true := rfl

theorem State.storeData_banksWf (a v : Byte) (h : s.banksWf = true) :
    (s.storeData a v).banksWf = true := by
  rw [State.banksWf_iff] at h ⊢
  exact ⟨Memory.wf_write _ _ _ h.1, h.2⟩

theorem State.storeStack_banksWf (a v : Byte) (h : s.banksWf = true) :
    (s.storeStack a v).banksWf = true := by
  rw [State.banksWf_iff] at h ⊢
  exact ⟨h.1, Memory.wf_write _ _ _ h.2.1, h.2.2⟩

theorem State.push_banksWf (v : Byte) (h : s.banksWf = true) : (s.push v).banksWf = true :=
  s.storeStack_banksWf _ v h

theorem State.setTop_banksWf (v : Byte) (h : s.banksWf = true) : (s.setTop v).banksWf = true :=
  s.storeStack_banksWf _ v h

theorem State.placeWord_banksWf (a : Byte) (w : Byte × Byte) (h : s.banksWf = true) :
    (s.placeWord a w).banksWf = true := by
  rw [State.banksWf_iff] at h ⊢
  exact ⟨h.1, h.2.1, Memory.wf_write _ _ _ h.2.2.1, Memory.wf_write _ _ _ h.2.2.2⟩

/-- Loading a program keeps the canonical form. -/
theorem State.placeFrom_banksWf (p : List (Byte × Byte)) (a : Byte) (h : s.banksWf = true) :
    (s.placeFrom a p).banksWf = true := by
  induction p generalizing s a with
  | nil => exact h
  | cons w ws ih => exact ih _ _ (s.placeWord_banksWf a w h)

/-! ### The ways a step can answer -/

/-- A step that answers a next state executed the instruction decoded from the word at PC, on a
machine that was not halted. -/
theorem step_next {s t : State} (h : step s = .next t) :
    s.halted = false ∧ ∃ op arg i,
      s.fetch = some (op, arg) ∧ decode op arg = .instr i ∧ exec i s = .next t := by
  unfold step at h
  split at h
  · cases h
  · rename_i hh
    refine ⟨by simpa using hh, ?_⟩
    split at h
    · cases h
    · rename_i op arg hf
      split at h
      · rename_i i hd
        exact ⟨op, arg, i, hf, hd, h⟩
      · cases h

end Sys2Proof.Machine
end

