-- ==== Sys2Proof/Laws/PerInstr.lean ====
section
/-! SUPPORT. Families of lemmas with one member per instruction.

`EncodedWordWellFormed`: the encoder never writes one of the reserved words next to CLF
(30_encoding.md R70). -/

namespace Sys2Proof.Laws.EncodedWordWellFormed

/-- The word of the instruction is not a reserved one. -/
def Statement (i : Instr) : Prop := wordWellFormed (encode i) = true

/-- Only major opcode `0011` with extended opcode `11` can make a word reserved. -/
theorem opcode_fields : ∀ (m : BitVec 4) (d a : BitVec 2), m ≠ 0b0011#4 ∨ d ≠ 0b11#2 →
    ((opcodeByte m d a).extractLsb' 2 6 == 0b001111#6) = false := by
  decide

theorem of_fields {m : BitVec 4} {d a : BitVec 2} {arg : Byte} (h : m ≠ 0b0011#4 ∨ d ≠ 0b11#2) :
    wordWellFormed (opcodeByte m d a, arg) = true := by
  simp [wordWellFormed, wordReserved, opcode_fields m d a h]

theorem move (rd ra : Reg) : Statement (.move rd ra) :=
  of_fields (Or.inl (by decide))
theorem add (rd ra rb : Reg) : Statement (.add rd ra rb) :=
  of_fields (Or.inl (by decide))
theorem sub (rd ra rb : Reg) : Statement (.sub rd ra rb) :=
  of_fields (Or.inl (by decide))
theorem addc (rd ra rb : Reg) : Statement (.addc rd ra rb) :=
  of_fields (Or.inl (by decide))
theorem subb (rd ra rb : Reg) : Statement (.subb rd ra rb) :=
  of_fields (Or.inl (by decide))
theorem and (rd ra rb : Reg) : Statement (.and rd ra rb) :=
  of_fields (Or.inl (by decide))
theorem or (rd ra rb : Reg) : Statement (.or rd ra rb) :=
  of_fields (Or.inl (by decide))
theorem not (rd ra : Reg) : Statement (.not rd ra) :=
  of_fields (Or.inl (by decide))
theorem xor (rd ra rb : Reg) : Statement (.xor rd ra rb) :=
  of_fields (Or.inl (by decide))
theorem nand (rd ra rb : Reg) : Statement (.nand rd ra rb) :=
  of_fields (Or.inl (by decide))
theorem nor (rd ra rb : Reg) : Statement (.nor rd ra rb) :=
  of_fields (Or.inl (by decide))
theorem xnor (rd ra rb : Reg) : Statement (.xnor rd ra rb) :=
  of_fields (Or.inl (by decide))
theorem sll (rd ra : Reg) : Statement (.sll rd ra) :=
  of_fields (Or.inl (by decide))
theorem srl (rd ra : Reg) : Statement (.srl rd ra) :=
  of_fields (Or.inl (by decide))
theorem sra (rd ra : Reg) : Statement (.sra rd ra) :=
  of_fields (Or.inl (by decide))
theorem rol (rd ra : Reg) : Statement (.rol rd ra) :=
  of_fields (Or.inl (by decide))
theorem addi (rd ra : Reg) (imm : Byte) : Statement (.addi rd ra imm) :=
  of_fields (Or.inl (by decide))
theorem andi (rd ra : Reg) (imm : Byte) : Statement (.andi rd ra imm) :=
  of_fields (Or.inl (by decide))
theorem cmpMove (ra : Reg) : Statement (.cmpMove ra) :=
  of_fields (Or.inr (by decide))
theorem cmpAdd (ra rb : Reg) : Statement (.cmpAdd ra rb) :=
  of_fields (Or.inr (by decide))
theorem cmpSub (ra rb : Reg) : Statement (.cmpSub ra rb) :=
  of_fields (Or.inr (by decide))
theorem cmpAddc (ra rb : Reg) : Statement (.cmpAddc ra rb) :=
  of_fields (Or.inr (by decide))
theorem cmpSubb (ra rb : Reg) : Statement (.cmpSubb ra rb) :=
  of_fields (Or.inr (by decide))
theorem cmpAnd (ra rb : Reg) : Statement (.cmpAnd ra rb) :=
  of_fields (Or.inr (by decide))
theorem cmpOr (ra rb : Reg) : Statement (.cmpOr ra rb) :=
  of_fields (Or.inr (by decide))
theorem cmpNot (ra : Reg) : Statement (.cmpNot ra) :=
  of_fields (Or.inr (by decide))
theorem cmpXor (ra rb : Reg) : Statement (.cmpXor ra rb) :=
  of_fields (Or.inr (by decide))
theorem cmpNand (ra rb : Reg) : Statement (.cmpNand ra rb) :=
  of_fields (Or.inr (by decide))
theorem cmpNor (ra rb : Reg) : Statement (.cmpNor ra rb) :=
  of_fields (Or.inr (by decide))
theorem cmpXnor (ra rb : Reg) : Statement (.cmpXnor ra rb) :=
  of_fields (Or.inr (by decide))
theorem cmpSll (ra : Reg) : Statement (.cmpSll ra) :=
  of_fields (Or.inr (by decide))
theorem cmpSrl (ra : Reg) : Statement (.cmpSrl ra) :=
  of_fields (Or.inr (by decide))
theorem cmpSra (ra : Reg) : Statement (.cmpSra ra) :=
  of_fields (Or.inr (by decide))
theorem cmpRol (ra : Reg) : Statement (.cmpRol ra) :=
  of_fields (Or.inr (by decide))
theorem cmpSubi (ra : Reg) (imm : Byte) : Statement (.cmpSubi ra imm) :=
  of_fields (Or.inr (by decide))
theorem cmpAndi (ra : Reg) (imm : Byte) : Statement (.cmpAndi ra imm) :=
  of_fields (Or.inr (by decide))
theorem clf : Statement .clf :=
  by unfold Statement; decide
theorem li (rd : Reg) (imm : Byte) : Statement (.li rd imm) :=
  of_fields (Or.inl (by decide))
theorem stAddr (ra : Reg) (addr : Byte) : Statement (.stAddr ra addr) :=
  of_fields (Or.inl (by decide))
theorem stReg (ra rb : Reg) : Statement (.stReg ra rb) :=
  of_fields (Or.inl (by decide))
theorem push (ra : Reg) : Statement (.push ra) :=
  of_fields (Or.inl (by decide))
theorem ldAddr (rd : Reg) (addr : Byte) : Statement (.ldAddr rd addr) :=
  of_fields (Or.inl (by decide))
theorem ldReg (rd ra : Reg) : Statement (.ldReg rd ra) :=
  of_fields (Or.inl (by decide))
theorem pop (rd : Reg) : Statement (.pop rd) :=
  of_fields (Or.inl (by decide))
theorem swap (rd ra : Reg) : Statement (.swap rd ra) :=
  of_fields (Or.inl (by decide))
theorem j (addr : Byte) : Statement (.j addr) :=
  of_fields (Or.inl (by decide))
theorem jr (ra : Reg) : Statement (.jr ra) :=
  of_fields (Or.inl (by decide))
theorem jal (addr : Byte) : Statement (.jal addr) :=
  of_fields (Or.inl (by decide))
theorem ret : Statement .ret :=
  of_fields (Or.inl (by decide))
theorem jz (addr : Byte) : Statement (.jz addr) :=
  of_fields (Or.inl (by decide))
theorem jnz (addr : Byte) : Statement (.jnz addr) :=
  of_fields (Or.inl (by decide))
theorem jc (addr : Byte) : Statement (.jc addr) :=
  of_fields (Or.inl (by decide))
theorem jnc (addr : Byte) : Statement (.jnc addr) :=
  of_fields (Or.inl (by decide))
theorem jv (addr : Byte) : Statement (.jv addr) :=
  of_fields (Or.inl (by decide))
theorem jnv (addr : Byte) : Statement (.jnv addr) :=
  of_fields (Or.inl (by decide))
theorem jn (addr : Byte) : Statement (.jn addr) :=
  of_fields (Or.inl (by decide))
theorem jp (addr : Byte) : Statement (.jp addr) :=
  of_fields (Or.inl (by decide))
theorem jsp (addr : Byte) : Statement (.jsp addr) :=
  of_fields (Or.inl (by decide))
theorem jleu (addr : Byte) : Statement (.jleu addr) :=
  of_fields (Or.inl (by decide))
theorem jlt (addr : Byte) : Statement (.jlt addr) :=
  of_fields (Or.inl (by decide))
theorem jle (addr : Byte) : Statement (.jle addr) :=
  of_fields (Or.inl (by decide))
theorem lcdCom (imm : Byte) : Statement (.lcdCom imm) :=
  of_fields (Or.inl (by decide))
theorem lcdImm (imm : Byte) : Statement (.lcdImm imm) :=
  of_fields (Or.inl (by decide))
theorem lcdReg (ra : Reg) : Statement (.lcdReg ra) :=
  of_fields (Or.inl (by decide))
theorem lcdAddr (addr : Byte) : Statement (.lcdAddr addr) :=
  of_fields (Or.inl (by decide))
theorem decReg (ra : Reg) : Statement (.decReg ra) :=
  of_fields (Or.inl (by decide))
theorem decAddr (addr : Byte) : Statement (.decAddr addr) :=
  of_fields (Or.inl (by decide))
theorem hlt : Statement .hlt :=
  of_fields (Or.inl (by decide))
theorem nop : Statement .nop :=
  of_fields (Or.inl (by decide))

end Sys2Proof.Laws.EncodedWordWellFormed
end

