-- ==== Sys2Proof/Tests/Slice0.lean ====
section
/-! SUPPORT. Tests, each one step at most. The words and the values before and after are the spec's
own: the example of each rule (40_alu.md, 41_data_movement.md, 42_jumps.md, 43_output_misc.md) or
the row of 95_test_vectors.md; where neither writes one, hand calculation from the rule. The last
section shows, for every statement with hypotheses, that they can be met. -/

namespace Sys2Proof.Tests

open Sys2Proof.Machine Sys2Proof.Claims

/-! ### Ill-formed terms, refused -/

/-- The word next to CLF is reserved (30_encoding.md R70). -/
theorem test_wf_refuses_reserved_word : wordWellFormed (0x3C, 0x00) = false := by decide

theorem test_wf_refuses_reserved_word_high : wordWellFormed (0x3F, 0xC0) = false := by decide

theorem test_wf_accepts_clf : wordWellFormed (0x3F, 0x7F) = true := by decide

/-- A text of 257 instructions does not fit (R74). -/
theorem test_wf_refuses_long_program : programFits (List.replicate 257 (0xFC, 0x00)) = false := by
  unfold programFits
  rw [List.length_replicate]
  decide

theorem test_wf_refuses_program_with_reserved_word :
    programWellFormed [(0xFC, 0x00), (0x3D, 0x80)] = false := by decide

/-! ### Decoding, one word per instruction -/

theorem test_decode_move : decode 0b00001101 0b00000000 = .instr (.move .r3 .r1) := by decide
theorem test_decode_add : decode 0b00001101 0b00010010 = .instr (.add .r3 .r1 .r2) := by decide
theorem test_decode_sub : decode 0b00001101 0b00100010 = .instr (.sub .r3 .r1 .r2) := by decide
theorem test_decode_addc : decode 0b00001101 0b00110010 = .instr (.addc .r3 .r1 .r2) := by decide
theorem test_decode_subb : decode 0b00001101 0b01000010 = .instr (.subb .r3 .r1 .r2) := by decide
theorem test_decode_and : decode 0b00001101 0b01010010 = .instr (.and .r3 .r1 .r2) := by decide
theorem test_decode_or : decode 0b00001101 0b01100010 = .instr (.or .r3 .r1 .r2) := by decide
theorem test_decode_not : decode 0b00001101 0b01110000 = .instr (.not .r3 .r1) := by decide
theorem test_decode_xor : decode 0b00001101 0b10000010 = .instr (.xor .r3 .r1 .r2) := by decide
theorem test_decode_nand : decode 0b00001101 0b10010010 = .instr (.nand .r3 .r1 .r2) := by decide
theorem test_decode_nor : decode 0b00001101 0b10100010 = .instr (.nor .r3 .r1 .r2) := by decide
theorem test_decode_xnor : decode 0b00001101 0b10110010 = .instr (.xnor .r3 .r1 .r2) := by decide
theorem test_decode_sll : decode 0b00001101 0b11000001 = .instr (.sll .r3 .r1) := by decide
theorem test_decode_srl : decode 0b00001101 0b11010000 = .instr (.srl .r3 .r1) := by decide
theorem test_decode_sra : decode 0b00001101 0b11100000 = .instr (.sra .r3 .r1) := by decide
theorem test_decode_rol : decode 0b00001101 0b11110000 = .instr (.rol .r3 .r1) := by decide
theorem test_decode_addi : decode 0b00010101 0b11111111 = .instr (.addi .r1 .r1 0xFF) := by decide
theorem test_decode_andi : decode 0b00101000 0b00001111 = .instr (.andi .r2 .r0 0x0F) := by decide
theorem test_decode_cmpMove : decode 0b00110001 0b00000000 = .instr (.cmpMove .r1) := by decide
theorem test_decode_cmpAdd : decode 0b00110001 0b00010010 = .instr (.cmpAdd .r1 .r2) := by decide
theorem test_decode_cmpSub : decode 0b00110001 0b00100010 = .instr (.cmpSub .r1 .r2) := by decide
theorem test_decode_cmpAddc : decode 0b00110001 0b00110010 = .instr (.cmpAddc .r1 .r2) := by decide
theorem test_decode_cmpSubb : decode 0b00110001 0b01000010 = .instr (.cmpSubb .r1 .r2) := by decide
theorem test_decode_cmpAnd : decode 0b00110001 0b01010010 = .instr (.cmpAnd .r1 .r2) := by decide
theorem test_decode_cmpOr : decode 0b00110001 0b01100010 = .instr (.cmpOr .r1 .r2) := by decide
theorem test_decode_cmpNot : decode 0b00110001 0b01110000 = .instr (.cmpNot .r1) := by decide
theorem test_decode_cmpXor : decode 0b00110001 0b10000010 = .instr (.cmpXor .r1 .r2) := by decide
theorem test_decode_cmpNand : decode 0b00110001 0b10010010 = .instr (.cmpNand .r1 .r2) := by decide
theorem test_decode_cmpNor : decode 0b00110001 0b10100010 = .instr (.cmpNor .r1 .r2) := by decide
theorem test_decode_cmpXnor : decode 0b00110001 0b10110010 = .instr (.cmpXnor .r1 .r2) := by decide
theorem test_decode_cmpSll : decode 0b00110001 0b11000000 = .instr (.cmpSll .r1) := by decide
theorem test_decode_cmpSrl : decode 0b00110001 0b11010000 = .instr (.cmpSrl .r1) := by decide
theorem test_decode_cmpSra : decode 0b00110001 0b11100000 = .instr (.cmpSra .r1) := by decide
theorem test_decode_cmpRol : decode 0b00110001 0b11110000 = .instr (.cmpRol .r1) := by decide
theorem test_decode_cmpSubi : decode 0b00110110 0b00000001 = .instr (.cmpSubi .r2 0x01) := by decide
theorem test_decode_cmpAndi : decode 0b00111000 0b10000000 = .instr (.cmpAndi .r0 0x80) := by decide
theorem test_decode_clf : decode 0b00111111 0b01111111 = .instr (.clf) := by decide
theorem test_decode_li : decode 0b01001000 0b00101010 = .instr (.li .r2 0x2A) := by decide
theorem test_decode_stAddr : decode 0b01010001 0b00010000 = .instr (.stAddr .r1 0x10) := by decide
theorem test_decode_stReg : decode 0b01010110 0b00000011 = .instr (.stReg .r2 .r3) := by decide
theorem test_decode_push : decode 0b01011110 0b00000000 = .instr (.push .r2) := by decide
theorem test_decode_ldAddr : decode 0b01101100 0b00010000 = .instr (.ldAddr .r3 0x10) := by decide
theorem test_decode_ldReg : decode 0b01111000 0b00000000 = .instr (.ldReg .r2 .r0) := by decide
theorem test_decode_pop : decode 0b10001000 0b00000000 = .instr (.pop .r2) := by decide
theorem test_decode_swap : decode 0b10010011 0b00000000 = .instr (.swap .r0 .r3) := by decide
theorem test_decode_j : decode 0b10100000 0b00100000 = .instr (.j 0x20) := by decide
theorem test_decode_jr : decode 0b10100110 0b00000000 = .instr (.jr .r2) := by decide
theorem test_decode_jal : decode 0b10101000 0b00000110 = .instr (.jal 0x06) := by decide
theorem test_decode_ret : decode 0b10101100 0b00000000 = .instr (.ret) := by decide
theorem test_decode_jz : decode 0b10110000 0b00010000 = .instr (.jz 0x10) := by decide
theorem test_decode_jnz : decode 0b10110100 0b00000010 = .instr (.jnz 0x02) := by decide
theorem test_decode_jc : decode 0b10111000 0b00110000 = .instr (.jc 0x30) := by decide
theorem test_decode_jnc : decode 0b10111100 0b00110000 = .instr (.jnc 0x30) := by decide
theorem test_decode_jv : decode 0b11000000 0b00110000 = .instr (.jv 0x30) := by decide
theorem test_decode_jnv : decode 0b11000100 0b00110000 = .instr (.jnv 0x30) := by decide
theorem test_decode_jn : decode 0b11001000 0b00110000 = .instr (.jn 0x30) := by decide
theorem test_decode_jp : decode 0b11001100 0b00110000 = .instr (.jp 0x30) := by decide
theorem test_decode_jsp : decode 0b11010000 0b00110000 = .instr (.jsp 0x30) := by decide
theorem test_decode_jleu : decode 0b11010100 0b00110000 = .instr (.jleu 0x30) := by decide
theorem test_decode_jlt : decode 0b11011000 0b00001101 = .instr (.jlt 0x0D) := by decide
theorem test_decode_jle : decode 0b11011100 0b00110000 = .instr (.jle 0x30) := by decide
theorem test_decode_lcdCom : decode 0b11100000 0b00111000 = .instr (.lcdCom 0x38) := by decide
theorem test_decode_lcdImm : decode 0b11100100 0b01000001 = .instr (.lcdImm 0x41) := by decide
theorem test_decode_lcdReg : decode 0b11101001 0b00000000 = .instr (.lcdReg .r1) := by decide
theorem test_decode_lcdAddr : decode 0b11101100 0b00010000 = .instr (.lcdAddr 0x10) := by decide
theorem test_decode_decReg : decode 0b11110000 0b00000000 = .instr (.decReg .r0) := by decide
theorem test_decode_decAddr : decode 0b11110100 0b00010000 = .instr (.decAddr 0x10) := by decide
theorem test_decode_hlt : decode 0b11111000 0b00000000 = .instr (.hlt) := by decide
theorem test_decode_nop : decode 0b11111111 0b11111111 = .instr (.nop) := by decide

/-- The opcode table numbers the word with the opcode byte in bits 15:8 (00_scope.md R8). -/
theorem test_table_word : decodeTableWord 16 0x5603 = some (.stReg .r2 .r3) := by decide

theorem test_table_word_reserved : decodeTableWord 16 0x3C00 = none := by decide

/-! ### One step per instruction -/

/-- The machine right after reset with these registers and flags. -/
def small (r0 r1 r2 r3 : Byte) (flags : Flags) : State :=
  State.launch { r0 := r0, r1 := r1, r2 := r2, r3 := r3, flags := flags }

/-- All flags 0. -/
def f0 : Flags := ⟨false, false, false, false⟩

/-- Z, C, V and S all 1. -/
def f1 : Flags := ⟨true, true, true, true⟩

/-- Only C is 1. -/
def fC : Flags := ⟨false, true, false, false⟩

/-- The word stands at PC and one step is made: does `p` hold of the next state? -/
def after (op arg : Byte) (s : State) (p : State → Bool) : Bool :=
  match step (s.placeWord s.pc (op, arg)) with
  | .next t => p t
  | .fault _ => false
  | .refused _ => false

/-- Z, C and S, the flags a shift defines. -/
def zcs (f : Flags) : Bool × Bool × Bool := (f.z, f.c, f.s)

theorem test_move_result : after 0x0D 0x00 (small 0x11 0x80 0x00 0x22 f1)
    (fun t => t.r3 == 0x80 && t.flags == ⟨false, false, false, true⟩ && t.r1 == 0x80 && t.pc == 1) = true := by decide
theorem test_add_result : after 0x0D 0x12 (small 0x11 0x12 0x34 0x22 f0)
    (fun t => t.r3 == 0x46 && t.flags == ⟨false, false, false, false⟩ && t.r1 == 0x12 && t.pc == 1) = true := by decide
theorem test_sub_result : after 0x0D 0x22 (small 0x11 0x10 0x20 0x22 f0)
    (fun t => t.r3 == 0xF0 && t.flags == ⟨false, true, false, true⟩ && t.r1 == 0x10 && t.pc == 1) = true := by decide
theorem test_addc_result : after 0x0D 0x32 (small 0x11 0x7F 0x80 0x22 f1)
    (fun t => t.r3 == 0x00 && t.flags == ⟨true, true, false, false⟩ && t.r1 == 0x7F && t.pc == 1) = true := by decide
theorem test_subb_result : after 0x0D 0x42 (small 0x11 0x05 0x05 0x22 f1)
    (fun t => t.r3 == 0xFF && t.flags == ⟨false, true, false, true⟩ && t.r1 == 0x05 && t.pc == 1) = true := by decide
theorem test_and_result : after 0x0D 0x52 (small 0x11 0xF0 0x3C 0x22 f1)
    (fun t => t.r3 == 0x30 && t.flags == ⟨false, false, false, false⟩ && t.r1 == 0xF0 && t.pc == 1) = true := by decide
theorem test_or_result : after 0x0D 0x62 (small 0x11 0xF0 0x0F 0x22 f1)
    (fun t => t.r3 == 0xFF && t.flags == ⟨false, false, false, true⟩ && t.r1 == 0xF0 && t.pc == 1) = true := by decide
theorem test_not_result : after 0x0D 0x70 (small 0x11 0x5A 0x00 0x22 f1)
    (fun t => t.r3 == 0xA5 && t.flags == ⟨false, false, false, true⟩ && t.r1 == 0x5A && t.pc == 1) = true := by decide
theorem test_xor_result : after 0x0D 0x82 (small 0x11 0xF0 0x3C 0x22 f1)
    (fun t => t.r3 == 0xCC && t.flags == ⟨false, false, false, true⟩ && t.r1 == 0xF0 && t.pc == 1) = true := by decide
theorem test_nand_result : after 0x0D 0x92 (small 0x11 0xF0 0x3C 0x22 f1)
    (fun t => t.r3 == 0xCF && t.flags == ⟨false, false, false, true⟩ && t.r1 == 0xF0 && t.pc == 1) = true := by decide
theorem test_nor_result : after 0x0D 0xA2 (small 0x11 0x12 0x24 0x22 f1)
    (fun t => t.r3 == 0xC9 && t.flags == ⟨false, false, false, true⟩ && t.r1 == 0x12 && t.pc == 1) = true := by decide
theorem test_xnor_result : after 0x0D 0xB2 (small 0x11 0xF0 0x3C 0x22 f1)
    (fun t => t.r3 == 0x33 && t.flags == ⟨false, false, false, false⟩ && t.r1 == 0xF0 && t.pc == 1) = true := by decide
theorem test_sll_result : after 0x0D 0xC1 (small 0 0xFF 0 0 f0)
    (fun t => t.r3 == 0xFE && zcs t.flags == (false, true, true) && t.r1 == 0xFF) = true := by decide
theorem test_srl_result : after 0x0D 0xD0 (small 0 0xFF 0 0 f0)
    (fun t => t.r3 == 0x7F && zcs t.flags == (false, false, false) && t.r1 == 0xFF) = true := by decide
theorem test_sra_result : after 0x0D 0xE0 (small 0 0x80 0 0 f0)
    (fun t => t.r3 == 0xC0 && zcs t.flags == (false, false, true) && t.r1 == 0x80) = true := by decide
theorem test_rol_result : after 0x0D 0xF0 (small 0 0x81 0 0 f0)
    (fun t => t.r3 == 0x03 && zcs t.flags == (false, true, false) && t.r1 == 0x81) = true := by decide
theorem test_addi_result : after 0x15 0xFF (small 0 0x05 0 0 f0)
    (fun t => t.r1 == 0x04 && t.flags == ⟨false, true, false, false⟩) = true := by decide
theorem test_andi_result : after 0x28 0x0F (small 0xA7 0 0 0 f1)
    (fun t => t.r2 == 0x07 && t.r0 == 0xA7 && t.flags == ⟨false, false, false, false⟩) = true := by decide
theorem test_cmpMove_result : after 0x31 0x00 (small 0 0x00 0x00 0 f1)
    (fun t => t.flags == ⟨true, false, false, false⟩ && t.r1 == 0x00) = true := by decide
theorem test_cmpAdd_result : after 0x31 0x12 (small 0 0x01 0xFF 0 f0)
    (fun t => t.flags == ⟨true, true, false, false⟩ && t.r1 == 0x01) = true := by decide
theorem test_cmpSub_result : after 0x31 0x22 (small 0 0x80 0x01 0 f1)
    (fun t => t.flags == ⟨false, false, true, false⟩ && t.r1 == 0x80) = true := by decide
theorem test_cmpAddc_result : after 0x31 0x32 (small 0 0xFF 0x00 0 f1)
    (fun t => t.flags == ⟨true, true, false, false⟩ && t.r1 == 0xFF) = true := by decide
theorem test_cmpSubb_result : after 0x31 0x42 (small 0 0x05 0x04 0 f1)
    (fun t => t.flags == ⟨true, false, false, false⟩ && t.r1 == 0x05) = true := by decide
theorem test_cmpAnd_result : after 0x31 0x52 (small 0 0xAA 0x55 0 f1)
    (fun t => t.flags == ⟨true, false, false, false⟩ && t.r1 == 0xAA) = true := by decide
theorem test_cmpOr_result : after 0x31 0x62 (small 0 0x00 0x00 0 f1)
    (fun t => t.flags == ⟨true, false, false, false⟩ && t.r1 == 0x00) = true := by decide
theorem test_cmpNot_result : after 0x31 0x70 (small 0 0xFF 0x00 0 f1)
    (fun t => t.flags == ⟨true, false, false, false⟩ && t.r1 == 0xFF) = true := by decide
theorem test_cmpXor_result : after 0x31 0x82 (small 0 0x80 0x01 0 f1)
    (fun t => t.flags == ⟨false, false, false, true⟩ && t.r1 == 0x80) = true := by decide
theorem test_cmpNand_result : after 0x31 0x92 (small 0 0xFF 0xFF 0 f1)
    (fun t => t.flags == ⟨true, false, false, false⟩ && t.r1 == 0xFF) = true := by decide
theorem test_cmpNor_result : after 0x31 0xA2 (small 0 0xF0 0x0F 0 f1)
    (fun t => t.flags == ⟨true, false, false, false⟩ && t.r1 == 0xF0) = true := by decide
theorem test_cmpXnor_result : after 0x31 0xB2 (small 0 0xAA 0xAA 0 f1)
    (fun t => t.flags == ⟨false, false, false, true⟩ && t.r1 == 0xAA) = true := by decide
theorem test_cmpSll_result : after 0x31 0xC0 (small 0 0x80 0 0 f0)
    (fun t => zcs t.flags == (true, true, false) && t.r1 == 0x80) = true := by decide
theorem test_cmpSrl_result : after 0x31 0xD0 (small 0 0x01 0 0 f0)
    (fun t => zcs t.flags == (true, false, false) && t.r1 == 0x01) = true := by decide
theorem test_cmpSra_result : after 0x31 0xE0 (small 0 0x80 0 0 f0)
    (fun t => zcs t.flags == (false, false, true) && t.r1 == 0x80) = true := by decide
theorem test_cmpRol_result : after 0x31 0xF0 (small 0 0x40 0 0 f0)
    (fun t => zcs t.flags == (false, false, true) && t.r1 == 0x40) = true := by decide
theorem test_cmpSubi_result : after 0x36 0x01 (small 0 0 0x80 0 f0)
    (fun t => t.flags == ⟨false, false, true, false⟩ && t.r2 == 0x80) = true := by decide
theorem test_cmpAndi_result : after 0x38 0x80 (small 0x7F 0 0 0 f1)
    (fun t => t.flags == ⟨true, false, false, false⟩ && t.r0 == 0x7F) = true := by decide
theorem test_clf_result : after 0x3C 0x40 (small 0 0 0 0 f1)
    (fun t => t.flags == f0 && t.pc == 1) = true := by decide
theorem test_li_result : after 0x48 0x80 (small 0 0 0 0 f1)
    (fun t => t.r2 == 0x80 && t.flags == f1) = true := by decide
theorem test_stAddr_result : after 0x51 0x10 (small 0 0x2A 0 0 f1)
    (fun t => t.data == [(0x10, 0x2A)] && t.flags == f1) = true := by decide
theorem test_stReg_result : after 0x55 0xFC (small 0x10 0x2A 0 0 f1)
    (fun t => t.data == [(0x10, 0x2A)] && t.r0 == 0x10) = true := by decide
theorem test_push_result : after 0x5A 0x00 (small 0 0 0x77 0 f1)
    (fun t => t.stack == [(0xFF, 0x77)] && t.sp == 0xFE) = true := by decide

/-- A small state with one byte in data memory. -/
def withData (a v : Byte) (s : State) : State := s.storeData a v

/-- A small state with one pushed byte. -/
def withTop (v : Byte) (s : State) : State := s.push v

theorem test_ldAddr_result : after 0x6C 0x10 (withData 0x10 0x54 (small 0 0 0 0 f1))
    (fun t => t.r3 == 0x54 && t.flags == f1) = true := by decide
theorem test_ldReg_result : after 0x70 0x00 (withData 0x10 0x2A (small 0x10 0 0 0 f1))
    (fun t => t.r0 == 0x2A && t.flags == f1) = true := by decide
theorem test_pop_result : after 0x88 0x00 (withTop 0x77 (small 0 0 0 0 f1))
    (fun t => t.r2 == 0x77 && t.sp == 0xFF && t.stack == [(0xFF, 0x77)]) = true := by decide
theorem test_swap_result : after 0x93 0x00 (withTop 0x11 (small 0xAA 0 0 0x33 f1))
    (fun t => t.r0 == 0x11 && t.r3 == 0x33 && t.stack == [(0xFF, 0x33)] && t.sp == 0xFE) = true := by decide
theorem test_j_result : after 0xA0 0x20 ((small 0 0 0 0 f1).setPc 0x05)
    (fun t => t.pc == 0x20 && t.flags == f1) = true := by decide
theorem test_jr_result : after 0xA6 0x00 (small 0 0 0x40 0 f1)
    (fun t => t.pc == 0x40) = true := by decide
theorem test_jal_result : after 0xA8 0x00 ((small 0 0 0 0 f1).setPc 0xFF)
    (fun t => t.pc == 0 && t.stack == [(0xFF, 0x00)] && t.sp == 0xFE) = true := by decide
theorem test_ret_result : after 0xAC 0x00 (withTop 0x04 (small 0 0 0 0 f1))
    (fun t => t.pc == 0x04 && t.sp == 0xFF) = true := by decide

/-- From address 0x20 with these flags, the jump with opcode byte `op` to 0x40: is it taken, every
flag kept? -/
def taken (op : Byte) (f : Flags) : Bool :=
  after op 0x40 ((small 0 0 0 0 f).setPc 0x20) (fun t => t.pc == 0x40 && t.flags == f)

/-- The same: does it go on to 0x21, every flag kept? -/
def notTaken (op : Byte) (f : Flags) : Bool :=
  after op 0x40 ((small 0 0 0 0 f).setPc 0x20) (fun t => t.pc == 0x21 && t.flags == f)

theorem test_jz_result : (
    taken 0xB0 ⟨true, false, false, false⟩ &&
    notTaken 0xB0 ⟨false, true, true, true⟩) = true := by decide
theorem test_jnz_result : (
    taken 0xB4 ⟨false, true, true, true⟩ &&
    notTaken 0xB4 ⟨true, false, false, false⟩) = true := by decide
theorem test_jc_result : (
    taken 0xB8 ⟨false, true, false, false⟩ &&
    notTaken 0xB8 ⟨true, false, true, true⟩) = true := by decide
theorem test_jnc_result : (
    taken 0xBC ⟨true, false, true, true⟩ &&
    notTaken 0xBC ⟨false, true, false, false⟩) = true := by decide
theorem test_jv_result : (
    taken 0xC0 ⟨false, false, true, false⟩ &&
    notTaken 0xC0 ⟨true, true, false, true⟩) = true := by decide
theorem test_jnv_result : (
    taken 0xC4 ⟨true, true, false, true⟩ &&
    notTaken 0xC4 ⟨false, false, true, false⟩) = true := by decide
theorem test_jn_result : (
    taken 0xC8 ⟨false, false, false, true⟩ &&
    notTaken 0xC8 ⟨true, true, true, false⟩) = true := by decide
theorem test_jp_result : (
    taken 0xCC ⟨true, true, true, false⟩ &&
    notTaken 0xCC ⟨false, false, false, true⟩) = true := by decide
theorem test_jsp_result : (
    taken 0xD0 ⟨false, true, true, false⟩ &&
    notTaken 0xD0 ⟨false, false, false, true⟩ &&
    notTaken 0xD0 ⟨true, false, false, false⟩) = true := by decide
theorem test_jleu_result : (
    taken 0xD4 ⟨true, false, false, false⟩ &&
    taken 0xD4 ⟨false, true, false, false⟩ &&
    notTaken 0xD4 ⟨false, false, true, true⟩) = true := by decide
theorem test_jlt_result : (
    taken 0xD8 ⟨false, false, true, false⟩ &&
    taken 0xD8 ⟨false, false, false, true⟩ &&
    notTaken 0xD8 ⟨false, false, true, true⟩ &&
    notTaken 0xD8 ⟨true, true, false, false⟩) = true := by decide
theorem test_jle_result : (
    taken 0xDC ⟨true, false, false, false⟩ &&
    taken 0xDC ⟨false, false, true, false⟩ &&
    taken 0xDC ⟨false, false, false, true⟩ &&
    notTaken 0xDC ⟨false, false, true, true⟩ &&
    notTaken 0xDC ⟨false, true, false, false⟩) = true := by decide
theorem test_lcdCom_result : after 0xE0 0x38 ((small 0 0 0 0 f1).lcdSend .data 0x21)
    (fun t => t.lcd == [⟨.data, 0x21⟩, ⟨.command, 0x38⟩]) = true := by decide
theorem test_lcdImm_result : after 0xE4 0x41 ((small 0 0 0 0 f1).lcdSend .data 0x21)
    (fun t => t.lcd == [⟨.data, 0x21⟩, ⟨.data, 0x41⟩]) = true := by decide
theorem test_lcdReg_result : after 0xE9 0x00 (small 0 0x48 0 0 f1)
    (fun t => t.lcd == [⟨.data, 0x48⟩] && t.out == 0) = true := by decide
theorem test_lcdAddr_result : after 0xEC 0x10 (withData 0x10 0x21 (small 0 0 0 0 f1))
    (fun t => t.lcd == [⟨.data, 0x21⟩] && t.flags == f1) = true := by decide
theorem test_decReg_result : after 0xF0 0x00 (small 0x0F 0 0 0 f1)
    (fun t => t.out == 0x0F && t.lcd == []) = true := by decide
theorem test_decAddr_result : after 0xF4 0x10 (withData 0x10 0x54 (small 0 0 0 0 f1))
    (fun t => t.out == 0x54 && t.lcd == []) = true := by decide
theorem test_hlt_result : after 0xF8 0x00 (small 1 2 3 4 f1)
    (fun t => t.halted && t.r3 == 4 && t.flags == f1 && t.sp == 0xFF) = true := by decide
theorem test_nop_result : after 0xFF 0xFF ((small 1 2 3 4 f1).setPc 0x07)
    (fun t => t.pc == 0x08 && t.r3 == 4 && t.flags == f1) = true := by decide

/-- The table of 95_test_vectors.md section 2.4: after CMP-SUB of `a` and `b`, which of JZ, JNZ, JC,
JNC, JV, JNV, JN, JP, JSP, JLEU, JLT, JLE are taken. -/
def takenAfterCompare (a b : Byte) : List Bool :=
  let f := (aluIn (small 0 0 0 0 f0) .sub a b).flags
  [taken 0xB0 f, taken 0xB4 f, taken 0xB8 f, taken 0xBC f, taken 0xC0 f, taken 0xC4 f,
    taken 0xC8 f, taken 0xCC f, taken 0xD0 f, taken 0xD4 f, taken 0xD8 f, taken 0xDC f]

theorem test_taken_after_compare_05_05 : takenAfterCompare 0x05 0x05 =
    [true, false, false, true, false, true,
      false, true, false, true, false, true] := by decide
theorem test_taken_after_compare_03_05 : takenAfterCompare 0x03 0x05 =
    [false, true, true, false, false, true,
      true, false, false, true, true, true] := by decide
theorem test_taken_after_compare_05_03 : takenAfterCompare 0x05 0x03 =
    [false, true, false, true, false, true,
      false, true, true, false, false, false] := by decide
theorem test_taken_after_compare_80_01 : takenAfterCompare 0x80 0x01 =
    [false, true, false, true, true, false,
      false, true, true, false, true, true] := by decide
theorem test_taken_after_compare_01_80 : takenAfterCompare 0x01 0x80 =
    [false, true, true, false, true, false,
      true, false, false, true, false, false] := by decide
theorem test_taken_after_compare_FF_01 : takenAfterCompare 0xFF 0x01 =
    [false, true, false, true, false, true,
      true, false, false, false, true, true] := by decide
theorem test_taken_after_compare_01_FF : takenAfterCompare 0x01 0xFF =
    [false, true, true, false, false, true,
      false, true, true, true, false, false] := by decide
theorem test_taken_after_compare_FE_FF : takenAfterCompare 0xFE 0xFF =
    [false, true, true, false, false, true,
      true, false, false, true, true, true] := by decide

/-! ### The first step after reset, and the placing of a word -/

theorem test_reset_faults_on_fetch :
    (match step State.reset with
      | .fault r => r == .fetchUndefined 0
      | .next _ => false
      | .refused _ => false) = true := by decide

theorem test_withFetchWord_runs :
    (match step (State.reset.withFetchWord 16 0x482A) with
      | .next t => t.r2 == 0x2A
      | .fault _ => false
      | .refused _ => false) = true := by decide

theorem test_reserved_word_refused :
    (match step (State.reset.withFetchWord 16 0x3C80) with
      | .refused r => r == .reservedEncoding 0x3C 0x80
      | .next _ => false
      | .fault _ => false) = true := by decide

/-! ### The hypotheses of the statements can be met -/

/-- A state about to execute ADD R3, R1, R2. -/
def sAdd : State := (small 0 0x12 0x34 0 f0).withFetchWord 16 0x0D12

theorem hyp_StepRunsTheDecodedInstruction :
    sAdd.halted = false ∧ sAdd.progHigh.read sAdd.pc.toNat = some 0x0D ∧
    sAdd.progLow.read sAdd.pc.toNat = some 0x12 ∧
    decode 0x0D 0x12 = .instr (.add .r3 .r1 .r2) := by decide

theorem hyp_HaltedMachineMakesNoStep : State.reset.halt.halted = true := by decide

/-- Nothing placed, only an opcode byte placed, only an argument byte placed. -/
theorem hyp_UndefinedFetchFaults :
    (State.reset.halted = false ∧ State.reset.progHigh.read State.reset.pc.toNat = none) ∧
    ((State.launch { progHigh := [(0, 0xFC)] }).halted = false ∧
      (State.launch { progHigh := [(0, 0xFC)] }).progLow.read 0 = none) ∧
    ((State.launch { progLow := [(0, 0xFC)] }).halted = false ∧
      (State.launch { progLow := [(0, 0xFC)] }).progHigh.read 0 = none) := by decide

/-- A state at the last address with a reserved word there. -/
def sReserved : State := (State.reset.setPc 0xFF).withFetchWord 16 0x3FC0

theorem hyp_ReservedWordIsRefused :
    sReserved.halted = false ∧ sReserved.progHigh.read sReserved.pc.toNat = some 0x3F ∧
    sReserved.progLow.read sReserved.pc.toNat = some 0xC0 ∧
    (0x3F : Byte).extractLsb' 2 6 = 0b001111#6 ∧ (0xC0 : Byte).extractLsb' 6 2 ≠ 0b01#2 := by
  decide

/-- The reserved words begin and end where the statement says: 3C 3F and 3C 80 are reserved, 3C 40,
3F 7F, 3B 00 and 40 00 are not. -/
theorem hyp_OnlyReservedWordsAreRejected :
    wordReserved 0x3C 0x3F = true ∧ wordReserved 0x3C 0x80 = true ∧
    wordReserved 0x3C 0x40 = false ∧ wordReserved 0x3F 0x7F = false ∧
    wordReserved 0x3B 0x00 = false ∧ wordReserved 0x40 0x00 = false := by decide

/-- Both sides of the equivalence hold of CLF with its don't-care bits set, and neither of the word
with argument bit 6 clear. -/
theorem hyp_DecodeReadsExactlyTheCareBits :
    (0x3F &&& (careMask .clf).1, 0x7F &&& (careMask .clf).2) = encode .clf ∧
    (0x3F &&& (careMask .clf).1, 0x3F &&& (careMask .clf).2) ≠ encode .clf := by decide

/-- A launch with the first and the last byte of a bank given. -/
theorem hyp_ResetBanksAreCanonical :
    (Memory.wf [(0, 0x01), (255, 0x02)]) = true ∧ (Memory.wf []) = true ∧
    (Memory.wf [(255, 0x02), (0, 0x01)]) = false ∧ (Memory.wf [(256, 0x01)]) = false := by decide

/-- A full text: its last instruction stands at address 255, and 256 is beyond it. -/
theorem hyp_LoadedProgramStandsInBothBanks :
    (List.replicate 256 ((0xFC : Byte), (0x00 : Byte))).length ≤ 256 ∧
    255 < (List.replicate 256 ((0xFC : Byte), (0x00 : Byte))).length ∧
    (List.replicate 256 ((0xFC : Byte), (0x00 : Byte))).length ≤ 256 := by
  rw [List.length_replicate]
  decide

/-- A step that stores, from banks in canonical form. -/
theorem hyp_StepKeepsBanksCanonical :
    ((small 0 0x2A 0 0 f0).withFetchWord 16 0x5110).banksWf = true ∧
    ∃ t, step ((small 0 0x2A 0 0 f0).withFetchWord 16 0x5110) = .next t :=
  ⟨by decide, _, rfl⟩

/-- NOP meets every clause's premise at once. -/
theorem hyp_StateIsWrittenOnlyAsListed :
    (∃ t, exec .nop sAdd = .next t) ∧ destReg .nop = none ∧ movesSp .nop = false ∧
    writesFlags .nop = false ∧ writesOut .nop = false ∧ sendsLcd .nop = false ∧
    Instr.nop ≠ .hlt ∧ isJump .nop = false ∧ writesData .nop = false ∧ writesStack .nop = false :=
  ⟨⟨_, rfl⟩, rfl, rfl, rfl, rfl, rfl, by decide, rfl, rfl, rfl⟩

/-- ADD reads neither bank; SWAP does not read data memory; LD-Addr does not read the stack. -/
theorem hyp_BanksAreReadOnlyAsListed :
    readsData (.add .r0 .r1 .r2) = false ∧ readsStack (.add .r0 .r1 .r2) = false ∧
    readsData (.swap .r0 .r1) = false ∧ readsStack (.ldAddr .r0 0xFF) = false := by decide

/-- Two sets of flags that differ in C alone, for JLE, which does not read C and writes no flag, and
for ADD, which reads none and writes all. -/
theorem hyp_FlagsAreReadAndWrittenOnlyAsListed :
    (readsZ (.jle 0) = true → f0.z = fC.z) ∧ (readsC (.jle 0) = true → f0.c = fC.c) ∧
    (readsV (.jle 0) = true → f0.v = fC.v) ∧ (readsS (.jle 0) = true → f0.s = fC.s) ∧
    writesFlags (.jle 0) = false ∧ readsC (.add .r0 .r1 .r2) = false ∧
    writesFlags (.add .r0 .r1 .r2) = true := by decide

theorem hyp_DrawnValuesReachOnlyVAndPcAfterHlt :
    undefinesV .hlt = false ∧ undefinesV (.add .r0 .r1 .r2) = false ∧
    undefinesV (.rol .r0 .r1) = true ∧ Instr.rol .r0 .r1 ≠ .hlt := by decide

/-- ADD leaves V defined, so the comparison with CMP-ADD takes V in. -/
theorem hyp_CompareIsTheAluOperationWithoutTheWrite :
    undefinesV (aluInstr .add .r3 .r1 .r2) = false ∧
    undefinesV (aluInstr .sra .r3 .r1 .r2) = true := by decide

theorem hyp_LcdTraceOnlyGrows : ∃ t, step (State.reset.withFetchWord 16 0xE038) = .next t :=
  ⟨_, rfl⟩

theorem hyp_TwoByteArithmetic :
    Reg.r0 ≠ .r1 ∧ Reg.r0 ≠ .r3 ∧ Reg.r2 ≠ .r3 := by decide

/-- The two-byte numbers of 95_test_vectors.md section 2.4: 0x8000 and 0x0001. -/
theorem hyp_TwoByteArithmetic_at_the_signed_boundary :
    pairInt 0x80 0x00 = -32768 ∧ pairNat 0x80 0x00 = 32768 ∧ pairInt 0x00 0x01 = 1 := by decide

/-- Two bytes stored to other addresses, the neighbours of the one loaded, between a store and a load;
R1 holds 0x12, R2 holds 0x34. -/
def between : List Instr := [.stAddr .r2 0x13, .push .r0, .li .r3 0x11, .stReg .r2 .r3, .jal 0x05]

theorem between_never_stores (s : State) : NeverStoresTo 0x12 between s := by
  simp only [between, NeverStoresTo]
  refine ⟨by simp [dataStoreAddr, eaImmediate], fun _ _ => ⟨by simp [dataStoreAddr], fun t _ =>
    ⟨by simp [dataStoreAddr], fun u hu => ⟨?_, fun _ _ =>
      ⟨by simp [dataStoreAddr], fun _ _ => trivial⟩⟩⟩⟩⟩
  have h : u = (t.setReg .r3 0x11).advance := by cases hu; rfl
  subst h
  simp [dataStoreAddr, eaRegister, State.advance, State.setPc, State.setReg, State.reg]

theorem hyp_LoadReturnsTheLatestStore_address :
    dataStoreAddr (.stAddr .r2 0x12) sAdd = some 0x12 ∧
    dataStoreByte (.stAddr .r2 0x12) sAdd = some 0x34 ∧
    ∃ t u, exec (.stAddr .r2 0x12) sAdd = .next t ∧ NeverStoresTo 0x12 between t ∧
      execAll between t = .next u ∧ u.reg .r1 = 0x12 :=
  ⟨by decide, by decide, _, _, rfl, between_never_stores _, rfl, by decide⟩

theorem hyp_LoadReturnsTheLatestStore_register :
    dataStoreAddr (.stReg .r2 .r1) sAdd = some 0x12 ∧
    dataStoreByte (.stReg .r2 .r1) sAdd = some 0x34 ∧
    ∃ t u, exec (.stReg .r2 .r1) sAdd = .next t ∧ NeverStoresTo 0x12 between t ∧
      execAll between t = .next u ∧ u.reg .r1 = 0x12 :=
  ⟨by decide, by decide, _, _, rfl, between_never_stores _, rfl, by decide⟩

/-- The empty stack. -/
theorem hyp_Stack_empty : Safety.StackHolds State.reset [] := by
  intro k h
  exact absurd h (Nat.not_lt_zero k)

/-- One entry, which POP, RET and SWAP can take, in the last cell of the bank. -/
theorem hyp_Stack_one : Safety.StackHolds (State.reset.push 0x77) [0x77] := by
  intro k h
  have hk : k = 0 := by simp only [List.length_singleton] at h; omega
  subst hk
  rfl

/-- A stack of 256 entries, with SP in the middle of the bank. -/
def sFull : State :=
  (State.launch { stack := (List.range 256).map (fun a => (a, 0x77)) }).setSp 0x80

theorem sFull_reads : ∀ a : Byte, sFull.stackByte a = 0x77 := by decide +kernel

/-- The full stack, on which PUSH and JAL lose the oldest entry. -/
theorem hyp_Stack_full :
    (List.replicate 256 (0x77 : Byte)).length ≤ 256 ∧
    Safety.StackHolds sFull (List.replicate 256 0x77) :=
  ⟨Nat.le_of_eq List.length_replicate, fun k _ => by rw [sFull_reads, List.getElem_replicate]⟩

/-- The full stack has a first entry, so the clauses of POP, RET and SWAP apply to it. -/
theorem hyp_Stack_full_has_top :
    List.replicate 256 (0x77 : Byte) = 0x77 :: List.replicate 255 0x77 := rfl

/-- A register compare-and-jump (JGT R0, R1, 0x40) at the last address: the jump stands at 0. -/
def sJumpReg : State :=
  ((small 0x09 0x05 0 0 f0).setPc 0xFF).placeFrom 0xFF [(0x31, 0x20), (0xD8, 0x40)]

theorem hyp_CompareAndJump_register :
    sJumpReg.halted = false ∧
    HoldsAt sJumpReg sJumpReg.pc ((AsmMacro.jumpReg .gt .r0 .r1 0x40).expand sJumpReg.pc) := by
  refine ⟨rfl, fun k h => ?_⟩
  match k, h with
  | 0, _ => exact ⟨0x31, 0x20, rfl, rfl, rfl⟩
  | 1, _ => exact ⟨0xD8, 0x40, rfl, rfl, rfl⟩

/-- The relation holds of these registers, and does not hold of the swapped ones. -/
theorem hyp_CompareAndJump_register_both_ways :
    Relation.holds .gt (sJumpReg.reg .r0) (sJumpReg.reg .r1) = true ∧
    Relation.holds .gt (sJumpReg.reg .r1) (sJumpReg.reg .r0) = false := by decide

/-- An immediate compare-and-jump of three instructions (JGE R0, 9, 0x40 at 0x20). -/
def sJumpImm : State :=
  ((small 0x09 0 0 0 f0).setPc 0x20).placeFrom 0x20 [(0x34, 0x09), (0xD8, 0x23), (0xA0, 0x40)]

theorem hyp_CompareAndJump_immediate :
    sJumpImm.halted = false ∧
    HoldsAt sJumpImm sJumpImm.pc ((AsmMacro.jumpImm .ge .r0 9 0x40).expand sJumpImm.pc) := by
  refine ⟨rfl, fun k h => ?_⟩
  match k, h with
  | 0, _ => exact ⟨0x34, 0x09, rfl, rfl, rfl⟩
  | 1, _ => exact ⟨0xD8, 0x23, rfl, rfl, rfl⟩
  | 2, _ => exact ⟨0xA0, 0x40, rfl, rfl, rfl⟩

theorem hyp_CompareAndJump_immediate_both_ways :
    Relation.holds .ge (sJumpImm.reg .r0) 9 = true ∧
    Relation.holds .ge (sJumpImm.reg .r1) 9 = false := by decide

theorem hyp_DecimalDisplayInstructions : writesOut .hlt = false := by decide

end Sys2Proof.Tests
end

/-! ## The scope family (00_scope.md): what a step runs, and where the next instruction stands -/

section
namespace Sys2Proof.Machine

/-! ### Fetching and stepping -/

/-- A fetch answers a word exactly when both program banks define its byte at PC. -/
theorem State.fetch_eq_some_iff {s : State} {op arg : Byte} :
    s.fetch = some (op, arg) ↔
      s.progHigh.read s.pc.toNat = some op ∧ s.progLow.read s.pc.toNat = some arg := by
  unfold State.fetch
  cases s.progHigh.read s.pc.toNat <;> cases s.progLow.read s.pc.toNat <;> simp

/-- The step of a running machine whose fetched word is an instruction; the converse direction of
`step_next`. -/
theorem step_of_fetch {s : State} {op arg : Byte} {i : Instr} (hrun : s.halted = false)
    (hfetch : s.fetch = some (op, arg)) (hdecode : decode op arg = .instr i) :
    step s = exec i s := by
  simp [step, hrun, hfetch, hdecode]

/-- Settles O5: the two bytes at PC are the word fetched, and the step runs what it decodes to. -/
theorem stepRunsTheDecodedInstruction : Obligations.StepRunsTheDecodedInstruction := by
  intro s op arg i hrun hhigh hlow hdecode
  have hfetch : s.fetch = some (op, arg) := State.fetch_eq_some_iff.mpr ⟨hhigh, hlow⟩
  exact step_of_fetch hrun hfetch hdecode

/-! ### The next address -/

/-- The next address as a number: byte addition wraps modulo 256 (decision D5, log entry 9). -/
theorem State.nextPc_toNat (s : State) : s.nextPc.toNat = (s.pc.toNat + 1) % 256 :=
  BitVec.toNat_add s.pc 1

/-- Settles O10: the statement is `State.nextPc_toNat` for every state. -/
theorem nextAddressWrapsModulo256 : Obligations.NextAddressWrapsModulo256 :=
  State.nextPc_toNat

end Sys2Proof.Machine
end

/-! ## The state family (10_state.md): what an instruction reads and writes -/

section
namespace Sys2Proof.Machine
open Sys2Proof.Claims

/-! ### A state with other flags and another count of draws -/

/-- The state with other flags and with another number of free values drawn before. -/
def State.reflag (s : State) (g : Flags) (n : Nat) : State := { s.setFlags g with draws := n }

section Reflag
variable (s : State) (g : Flags) (n : Nat)

@[simp] theorem State.reflag_flags : (s.reflag g n).flags = g := rfl
@[simp] theorem State.reflag_draws : (s.reflag g n).draws = n := rfl
@[simp] theorem State.reflag_pc : (s.reflag g n).pc = s.pc := rfl
@[simp] theorem State.reflag_reg (q : Reg) : (s.reflag g n).reg q = s.reg q := rfl
@[simp] theorem State.reflag_nextPc : (s.reflag g n).nextPc = s.nextPc := rfl
@[simp] theorem State.reflag_top : (s.reflag g n).top = s.top := rfl
@[simp] theorem State.reflag_reflag (f : Flags) (m : Nat) :
    (s.reflag g n).reflag f m = s.reflag f m := rfl
@[simp] theorem State.reflag_self : s.reflag s.flags s.draws = s := rfl

@[simp] theorem State.reflag_setReg (r : Reg) (v : Byte) :
    (s.setReg r v).reflag g n = (s.reflag g n).setReg r v := by
  cases r <;> rfl
@[simp] theorem State.reflag_setPc (t : Byte) :
    (s.setPc t).reflag g n = (s.reflag g n).setPc t := rfl
@[simp] theorem State.reflag_advance : s.advance.reflag g n = (s.reflag g n).advance := rfl
@[simp] theorem State.reflag_setFlags (f : Flags) :
    (s.setFlags f).reflag g n = s.reflag g n := rfl
@[simp] theorem State.reflag_draw : s.draw.reflag g n = s.reflag g n := rfl
@[simp] theorem State.reflag_storeData (a v : Byte) :
    (s.storeData a v).reflag g n = (s.reflag g n).storeData a v := rfl
@[simp] theorem State.reflag_push (v : Byte) :
    (s.push v).reflag g n = (s.reflag g n).push v := rfl
@[simp] theorem State.reflag_dropTop : s.dropTop.reflag g n = (s.reflag g n).dropTop := rfl
@[simp] theorem State.reflag_setTop (v : Byte) :
    (s.setTop v).reflag g n = (s.reflag g n).setTop v := rfl
@[simp] theorem State.reflag_lcdSend (k : LcdKind) (v : Byte) :
    (s.lcdSend k v).reflag g n = (s.reflag g n).lcdSend k v := rfl
@[simp] theorem State.reflag_setOut (v : Byte) :
    (s.setOut v).reflag g n = (s.reflag g n).setOut v := rfl
@[simp] theorem State.reflag_halt : s.halt.reflag g n = (s.reflag g n).halt := rfl
@[simp] theorem aluFlags_reflag (f : Funct) (a b : Byte) :
    (aluFlags s f a b).reflag g n = s.reflag g n := by
  unfold aluFlags; split <;> rfl

end Reflag

@[simp] theorem aluIn_reflag (s : State) (g : Flags) (n : Nat) (f : Funct) (a b : Byte) :
    aluIn (s.reflag g n) f a b = alu f a b g.c (Config.undefinedV n) := rfl

/-! ### What an instruction may read of the flags -/

/-- `f` and `g` agree on every flag that the instruction reads (R22). -/
structure FlagsAgree (i : Instr) (f g : Flags) : Prop where
  z : readsZ i = true → f.z = g.z
  c : readsC i = true → f.c = g.c
  v : readsV i = true → f.v = g.v
  s : readsS i = true → f.s = g.s

/-- A value computed from the state by way of no flag but those the instruction reads, and of no
draw. -/
def ReadsAsListed (i : Instr) (value : State → Byte) : Prop :=
  ∀ (s : State) f g m n, FlagsAgree i f g → value (s.reflag f m) = value (s.reflag g n)

/-- The ALU functions that look at the carry-in. -/
def readsCarryIn : Funct → Bool
  | .addc | .subb => true
  | _ => false

/-- Two runs of an ALU function on the same operands, with the same carry-in where the function
looks at it, agree on everything but an undefined V. -/
theorem alu_same_but_drawn {f : Funct} (a b : Byte) {c d : Bool} (u w : Bool)
    (hcarry : readsCarryIn f = true → c = d) :
    (alu f a b c u).result = (alu f a b d w).result ∧
    (alu f a b c u).flags.z = (alu f a b d w).flags.z ∧
    (alu f a b c u).flags.c = (alu f a b d w).flags.c ∧
    (alu f a b c u).flags.s = (alu f a b d w).flags.s ∧
    (leavesVUndefined f = false → (alu f a b c u).flags.v = (alu f a b d w).flags.v) := by
  cases f with
  | addc | subb =>
    obtain rfl := hcarry rfl
    exact ⟨rfl, rfl, rfl, rfl, fun _ => rfl⟩
  | sll | srl | sra | rol => exact ⟨rfl, rfl, rfl, rfl, nofun⟩
  | _ => exact ⟨rfl, rfl, rfl, rfl, fun _ => rfl⟩

/-! ### The effect of an instruction -/

/-- The effects that instructions have on a state. Each part of the state that an effect writes asks
that the instruction stands in that part's list (10_state.md R13, R21, 20_memory.md R41), and each
operand that it reads no flag outside the lists of R22. -/
inductive Effect (i : Instr) : (State → State) → Prop
  | aluToReg (f : Funct) (rd : Reg) (a b : State → Byte) (ha : ReadsAsListed i a)
      (hb : ReadsAsListed i b) (hcarry : readsCarryIn f = true → readsC i = true)
      (hundef : undefinesV i = leavesVUndefined f) (hdest : destReg i = some rd)
      (hflags : writesFlags i = true) :
      Effect i fun s =>
        ((aluFlags s f (a s) (b s)).setReg rd (aluIn s f (a s) (b s)).result).advance
  | aluCompare (f : Funct) (a b : State → Byte) (ha : ReadsAsListed i a) (hb : ReadsAsListed i b)
      (hcarry : readsCarryIn f = true → readsC i = true)
      (hundef : undefinesV i = leavesVUndefined f) (hflags : writesFlags i = true) :
      Effect i fun s => (aluFlags s f (a s) (b s)).advance
  | clearFlags (hflags : writesFlags i = true) : Effect i fun s => (s.setFlags flagsClear).advance
  | load (rd : Reg) (v : State → Byte) (hv : ReadsAsListed i v) (hdest : destReg i = some rd)
      (hflags : writesFlags i = false) : Effect i fun s => (s.setReg rd (v s)).advance
  | store (a v : State → Byte) (ha : ReadsAsListed i a) (hv : ReadsAsListed i v)
      (hdata : writesData i = true) (hflags : writesFlags i = false) :
      Effect i fun s => (s.storeData (a s) (v s)).advance
  | push (v : State → Byte) (hv : ReadsAsListed i v) (hstack : writesStack i = true)
      (hsp : movesSp i = true) (hflags : writesFlags i = false) :
      Effect i fun s => (s.push (v s)).advance
  | pop (rd : Reg) (hdest : destReg i = some rd) (hsp : movesSp i = true)
      (hflags : writesFlags i = false) : Effect i fun s => (s.dropTop.setReg rd s.top).advance
  | swap (rd : Reg) (v : State → Byte) (hv : ReadsAsListed i v) (hdest : destReg i = some rd)
      (hstack : writesStack i = true) (hflags : writesFlags i = false) :
      Effect i fun s => ((s.setTop (v s)).setReg rd s.top).advance
  | jump (target : State → Byte) (htarget : ReadsAsListed i target) (hjump : isJump i = true)
      (hflags : writesFlags i = false) : Effect i fun s => s.setPc (target s)
  | call (addr : Byte) (hjump : isJump i = true) (hstack : writesStack i = true)
      (hsp : movesSp i = true) (hflags : writesFlags i = false) :
      Effect i fun s => (s.push s.nextPc).setPc addr
  | ret (hjump : isJump i = true) (hsp : movesSp i = true) (hflags : writesFlags i = false) :
      Effect i fun s => s.dropTop.setPc s.top
  | lcdSend (k : LcdKind) (v : State → Byte) (hv : ReadsAsListed i v) (hlcd : sendsLcd i = true)
      (hflags : writesFlags i = false) : Effect i fun s => (s.lcdSend k (v s)).advance
  | setOut (v : State → Byte) (hv : ReadsAsListed i v) (hout : writesOut i = true)
      (hflags : writesFlags i = false) : Effect i fun s => (s.setOut (v s)).advance
  | halt (hhlt : i = .hlt) :
      Effect i fun s => (s.halt.setPc (Config.pcAfterHlt s.draws)).draw
  | advance (hflags : writesFlags i = false) : Effect i fun s => s.advance

/-- In every state the instruction answers a next state, given by one of the effects. -/
def HasEffect (i : Instr) : Prop := ∃ F, Effect i F ∧ ∀ s, exec i s = .next (F s)

/-- A value that is the same whatever the flags and the draws reads as listed. -/
theorem ReadsAsListed.of_blind {i : Instr} {value : State → Byte}
    (h : ∀ s f n, value (s.reflag f n) = value s) : ReadsAsListed i value := by
  intro s f g m n _
  rw [h, h]

theorem readsAsListed_reg (i : Instr) (r : Reg) : ReadsAsListed i fun s => s.reg r :=
  .of_blind fun _ _ _ => rfl

theorem readsAsListed_const (i : Instr) (b : Byte) : ReadsAsListed i fun _ => b :=
  .of_blind fun _ _ _ => rfl

theorem readsAsListed_dataAtImmediate (i : Instr) (addr : Byte) :
    ReadsAsListed i fun s => dataAtImmediate s addr :=
  .of_blind fun _ _ _ => rfl

theorem readsAsListed_dataAtRegister (i : Instr) (r : Reg) :
    ReadsAsListed i fun s => dataAtRegister s r :=
  .of_blind fun _ _ _ => rfl

/-! ### Every instruction has one of the effects -/

section AluInstr
variable (f : Funct) (rd ra rb : Reg) (s : State)

/-- The ALU operations of opcode byte `0000DDAA` (R81); a function of one operand ignores Rb. -/
theorem exec_aluInstr :
    exec (aluInstr f rd ra rb) s = aluToReg s f rd (s.reg ra) (s.reg rb) := by
  cases f <;> rfl

@[simp] theorem destReg_aluInstr : destReg (aluInstr f rd ra rb) = some rd := by
  cases f <;> rfl
@[simp] theorem writesFlags_aluInstr : writesFlags (aluInstr f rd ra rb) = true := by
  cases f <;> rfl
@[simp] theorem readsC_aluInstr : readsC (aluInstr f rd ra rb) = readsCarryIn f := by
  cases f <;> rfl
@[simp] theorem undefinesV_aluInstr :
    undefinesV (aluInstr f rd ra rb) = leavesVUndefined f := by
  cases f <;> rfl

/-- The compare operations of opcode byte `001100AA` (R100). -/
theorem exec_cmpInstr : exec (cmpInstr f ra rb) s = aluCompare s f (s.reg ra) (s.reg rb) := by
  cases f <;> rfl

@[simp] theorem writesFlags_cmpInstr : writesFlags (cmpInstr f ra rb) = true := by
  cases f <;> rfl
@[simp] theorem readsC_cmpInstr : readsC (cmpInstr f ra rb) = readsCarryIn f := by
  cases f <;> rfl
@[simp] theorem undefinesV_cmpInstr : undefinesV (cmpInstr f ra rb) = leavesVUndefined f := by
  cases f <;> rfl

theorem aluInstr_hasEffect : HasEffect (aluInstr f rd ra rb) :=
  ⟨_, .aluToReg f rd (·.reg ra) (·.reg rb) (readsAsListed_reg _ ra) (readsAsListed_reg _ rb)
    (by simp) (by simp) (by simp) (by simp), exec_aluInstr f rd ra rb⟩

theorem cmpInstr_hasEffect : HasEffect (cmpInstr f ra rb) :=
  ⟨_, .aluCompare f (·.reg ra) (·.reg rb) (readsAsListed_reg _ ra) (readsAsListed_reg _ rb)
    (by simp) (by simp) (by simp), exec_cmpInstr f ra rb⟩

end AluInstr

/-- A conditional jump, from what its condition reads of the flags (42_jumps.md R154 to R165). -/
theorem jumpOn_hasEffect {i : Instr} (cond : Flags → Bool) (addr : Byte)
    (hexec : ∀ s, exec i s = jumpOn (cond s.flags) addr s) (hjump : isJump i = true)
    (hflags : writesFlags i = false) (hcond : ∀ f g, FlagsAgree i f g → cond f = cond g) :
    HasEffect i := by
  refine ⟨_, .jump (fun s => if cond s.flags then addr else s.nextPc) ?_ hjump hflags, hexec⟩
  intro s f g m n hagree
  change (if cond f then addr else s.nextPc) = if cond g then addr else s.nextPc
  rw [hcond f g hagree]

/-- Every instruction answers a next state, by one of the effects. -/
theorem exec_hasEffect (i : Instr) : HasEffect i := by
  cases i with
  | move rd ra => exact aluInstr_hasEffect .move rd ra ra
  | add rd ra rb => exact aluInstr_hasEffect .add rd ra rb
  | sub rd ra rb => exact aluInstr_hasEffect .sub rd ra rb
  | addc rd ra rb => exact aluInstr_hasEffect .addc rd ra rb
  | subb rd ra rb => exact aluInstr_hasEffect .subb rd ra rb
  | and rd ra rb => exact aluInstr_hasEffect .and rd ra rb
  | or rd ra rb => exact aluInstr_hasEffect .or rd ra rb
  | not rd ra => exact aluInstr_hasEffect .not rd ra ra
  | xor rd ra rb => exact aluInstr_hasEffect .xor rd ra rb
  | nand rd ra rb => exact aluInstr_hasEffect .nand rd ra rb
  | nor rd ra rb => exact aluInstr_hasEffect .nor rd ra rb
  | xnor rd ra rb => exact aluInstr_hasEffect .xnor rd ra rb
  | sll rd ra => exact aluInstr_hasEffect .sll rd ra ra
  | srl rd ra => exact aluInstr_hasEffect .srl rd ra ra
  | sra rd ra => exact aluInstr_hasEffect .sra rd ra ra
  | rol rd ra => exact aluInstr_hasEffect .rol rd ra ra
  | addi rd ra imm =>
    exact ⟨_, .aluToReg .add rd (·.reg ra) (fun _ => imm) (readsAsListed_reg _ ra)
      (readsAsListed_const _ imm) nofun rfl rfl rfl, fun _ => rfl⟩
  | andi rd ra imm =>
    exact ⟨_, .aluToReg .and rd (·.reg ra) (fun _ => imm) (readsAsListed_reg _ ra)
      (readsAsListed_const _ imm) nofun rfl rfl rfl, fun _ => rfl⟩
  | cmpMove ra => exact cmpInstr_hasEffect .move ra ra
  | cmpAdd ra rb => exact cmpInstr_hasEffect .add ra rb
  | cmpSub ra rb => exact cmpInstr_hasEffect .sub ra rb
  | cmpAddc ra rb => exact cmpInstr_hasEffect .addc ra rb
  | cmpSubb ra rb => exact cmpInstr_hasEffect .subb ra rb
  | cmpAnd ra rb => exact cmpInstr_hasEffect .and ra rb
  | cmpOr ra rb => exact cmpInstr_hasEffect .or ra rb
  | cmpNot ra => exact cmpInstr_hasEffect .not ra ra
  | cmpXor ra rb => exact cmpInstr_hasEffect .xor ra rb
  | cmpNand ra rb => exact cmpInstr_hasEffect .nand ra rb
  | cmpNor ra rb => exact cmpInstr_hasEffect .nor ra rb
  | cmpXnor ra rb => exact cmpInstr_hasEffect .xnor ra rb
  | cmpSll ra => exact cmpInstr_hasEffect .sll ra ra
  | cmpSrl ra => exact cmpInstr_hasEffect .srl ra ra
  | cmpSra ra => exact cmpInstr_hasEffect .sra ra ra
  | cmpRol ra => exact cmpInstr_hasEffect .rol ra ra
  | cmpSubi ra imm =>
    exact ⟨_, .aluCompare .sub (·.reg ra) (fun _ => imm) (readsAsListed_reg _ ra)
      (readsAsListed_const _ imm) nofun rfl rfl, fun _ => rfl⟩
  | cmpAndi ra imm =>
    exact ⟨_, .aluCompare .and (·.reg ra) (fun _ => imm) (readsAsListed_reg _ ra)
      (readsAsListed_const _ imm) nofun rfl rfl, fun _ => rfl⟩
  | clf => exact ⟨_, .clearFlags rfl, fun _ => rfl⟩
  | li rd imm => exact ⟨_, .load rd _ (readsAsListed_const _ imm) rfl rfl, fun _ => rfl⟩
  | stAddr ra addr =>
    exact ⟨_, .store _ _ (readsAsListed_const _ addr) (readsAsListed_reg _ ra) rfl rfl,
      fun _ => rfl⟩
  | stReg ra rb =>
    exact ⟨_, .store _ _ (readsAsListed_reg _ rb) (readsAsListed_reg _ ra) rfl rfl,
      fun _ => rfl⟩
  | push ra => exact ⟨_, .push _ (readsAsListed_reg _ ra) rfl rfl rfl, fun _ => rfl⟩
  | ldAddr rd addr =>
    exact ⟨_, .load rd _ (readsAsListed_dataAtImmediate _ addr) rfl rfl, fun _ => rfl⟩
  | ldReg rd ra =>
    exact ⟨_, .load rd _ (readsAsListed_dataAtRegister _ ra) rfl rfl, fun _ => rfl⟩
  | pop rd => exact ⟨_, .pop rd rfl rfl rfl, fun _ => rfl⟩
  | swap rd ra => exact ⟨_, .swap rd _ (readsAsListed_reg _ ra) rfl rfl rfl, fun _ => rfl⟩
  | j addr => exact ⟨_, .jump _ (readsAsListed_const _ addr) rfl rfl, fun _ => rfl⟩
  | jr ra => exact ⟨_, .jump _ (readsAsListed_reg _ ra) rfl rfl, fun _ => rfl⟩
  | jal addr => exact ⟨_, .call addr rfl rfl rfl rfl, fun _ => rfl⟩
  | ret => exact ⟨_, .ret rfl rfl rfl, fun _ => rfl⟩
  | jz addr =>
    exact jumpOn_hasEffect condZ addr (fun _ => rfl) rfl rfl
      fun _ _ h => by simp [condZ, h.z rfl]
  | jnz addr =>
    exact jumpOn_hasEffect condNZ addr (fun _ => rfl) rfl rfl
      fun _ _ h => by simp [condNZ, h.z rfl]
  | jc addr =>
    exact jumpOn_hasEffect condC addr (fun _ => rfl) rfl rfl
      fun _ _ h => by simp [condC, h.c rfl]
  | jnc addr =>
    exact jumpOn_hasEffect condNC addr (fun _ => rfl) rfl rfl
      fun _ _ h => by simp [condNC, h.c rfl]
  | jv addr =>
    exact jumpOn_hasEffect condV addr (fun _ => rfl) rfl rfl
      fun _ _ h => by simp [condV, h.v rfl]
  | jnv addr =>
    exact jumpOn_hasEffect condNV addr (fun _ => rfl) rfl rfl
      fun _ _ h => by simp [condNV, h.v rfl]
  | jn addr =>
    exact jumpOn_hasEffect condN addr (fun _ => rfl) rfl rfl
      fun _ _ h => by simp [condN, h.s rfl]
  | jp addr =>
    exact jumpOn_hasEffect condP addr (fun _ => rfl) rfl rfl
      fun _ _ h => by simp [condP, h.s rfl]
  | jsp addr =>
    exact jumpOn_hasEffect condSP addr (fun _ => rfl) rfl rfl
      fun _ _ h => by simp [condSP, h.s rfl, h.z rfl]
  | jleu addr =>
    exact jumpOn_hasEffect condLEU addr (fun _ => rfl) rfl rfl
      fun _ _ h => by simp [condLEU, h.c rfl, h.z rfl]
  | jlt addr =>
    exact jumpOn_hasEffect condLT addr (fun _ => rfl) rfl rfl
      fun _ _ h => by simp [condLT, h.v rfl, h.s rfl]
  | jle addr =>
    exact jumpOn_hasEffect condLE addr (fun _ => rfl) rfl rfl
      fun _ _ h => by simp [condLE, h.v rfl, h.s rfl, h.z rfl]
  | lcdCom imm =>
    exact ⟨_, .lcdSend .command _ (readsAsListed_const _ imm) rfl rfl, fun _ => rfl⟩
  | lcdImm imm => exact ⟨_, .lcdSend .data _ (readsAsListed_const _ imm) rfl rfl, fun _ => rfl⟩
  | lcdReg ra => exact ⟨_, .lcdSend .data _ (readsAsListed_reg _ ra) rfl rfl, fun _ => rfl⟩
  | lcdAddr addr =>
    exact ⟨_, .lcdSend .data _ (readsAsListed_dataAtImmediate _ addr) rfl rfl, fun _ => rfl⟩
  | decReg ra => exact ⟨_, .setOut _ (readsAsListed_reg _ ra) rfl rfl, fun _ => rfl⟩
  | decAddr addr =>
    exact ⟨_, .setOut _ (readsAsListed_dataAtImmediate _ addr) rfl rfl, fun _ => rfl⟩
  | hlt => exact ⟨_, .halt rfl, fun _ => rfl⟩
  | nop => exact ⟨_, .advance rfl, fun _ => rfl⟩

/-! ### The frame of every part of the state -/

/-- The clauses of the frame, each by its list of instructions; an effect has to argue for those
parts alone that it writes. -/
structure WrittenAsListed (i : Instr) (s t : State) : Prop where
  reg : ∀ q, destReg i ≠ some q → t.reg q = s.reg q := by intro q _; simp
  sp : movesSp i = false → t.sp = s.sp := by intro _; simp
  flags : writesFlags i = false → t.flags = s.flags := by intro _; simp
  out : writesOut i = false → t.out = s.out := by intro _; simp
  lcd : sendsLcd i = false → t.lcd = s.lcd := by intro _; simp
  halted : i ≠ .hlt → t.halted = s.halted := by intro _; simp
  pc : isJump i = false → i ≠ .hlt → t.pc = s.nextPc := by intro _ _; simp
  data : writesData i = false → SameData s t := by intro _ q; simp
  stack : writesStack i = false → SameStack s t := by intro _ q; simp
  program : SameProgram s t := by intro q; simp

/-- A register write at the instruction's destination keeps every other register. -/
theorem State.setReg_reg_of_destReg_ne (s : State) {i : Instr} {rd q : Reg} (v : Byte)
    (hdest : destReg i = some rd) (hq : destReg i ≠ some q) : (s.setReg rd v).reg q = s.reg q :=
  s.setReg_reg_other rd q v fun h => hq (h ▸ hdest)

theorem Effect.writtenAsListed {i : Instr} {F : State → State} (h : Effect i F) (s : State) :
    WrittenAsListed i s (F s) := by
  cases h with
  | aluToReg f rd a b _ _ _ _ hdest hflags =>
    exact {
      reg q hq := by simp [State.setReg_reg_of_destReg_ne _ _ hdest hq]
      flags hn := by simp [hn] at hflags }
  | aluCompare f a b _ _ _ _ hflags => exact { flags := by simp [hflags] }
  | clearFlags hflags => exact { flags := by simp [hflags] }
  | load rd v _ hdest =>
    exact { reg q hq := by simp [State.setReg_reg_of_destReg_ne _ _ hdest hq] }
  | store a v _ _ hdata => exact { data := by simp [hdata] }
  | push v _ hstack hsp => exact { sp := by simp [hsp], stack := by simp [hstack] }
  | pop rd hdest hsp =>
    exact {
      reg q hq := by simp [State.setReg_reg_of_destReg_ne _ _ hdest hq]
      sp := by simp [hsp] }
  | swap rd v _ hdest hstack =>
    exact {
      reg q hq := by simp [State.setReg_reg_of_destReg_ne _ _ hdest hq]
      stack := by simp [hstack] }
  | jump target _ hjump => exact { pc := by simp [hjump] }
  | call addr hjump hstack hsp =>
    exact { sp := by simp [hsp], pc := by simp [hjump], stack := by simp [hstack] }
  | ret hjump hsp => exact { sp := by simp [hsp], pc := by simp [hjump] }
  | lcdSend k v _ hlcd => exact { lcd := by simp [hlcd] }
  | setOut v _ hout => exact { out := by simp [hout] }
  | halt hhlt => exact { halted := by simp [hhlt], pc := by simp [hhlt] }
  | advance => exact {}

theorem exec_writtenAsListed {i : Instr} {s t : State} (h : exec i s = .next t) :
    WrittenAsListed i s t := by
  obtain ⟨F, hF, hexec⟩ := exec_hasEffect i
  rw [hexec s] at h
  cases h
  exact hF.writtenAsListed s

/-- Settles O15: the statement is `exec_writtenAsListed`, clause by clause. -/
theorem stateIsWrittenOnlyAsListed : Obligations.StateIsWrittenOnlyAsListed := by
  intro i s t h
  obtain ⟨reg, sp, flags, out, lcd, halted, pc, data, stack, program⟩ := exec_writtenAsListed h
  exact ⟨reg, sp, flags, out, lcd, halted, pc, data, stack, program⟩

/-! ### Two runs from states with different flags -/

/-- Two runs of an instruction other than HLT, from states that differ in flags it does not read and
in draws, end alike but for flags and draws. -/
theorem Effect.alike_but_flags {i : Instr} {F : State → State} (h : Effect i F) (hne : i ≠ .hlt)
    {f g : Flags} (hagree : FlagsAgree i f g) (s : State) (m n : Nat) (x : Flags) (k : Nat) :
    (F (s.reflag f m)).reflag x k = (F (s.reflag g n)).reflag x k := by
  cases h with
  | aluToReg fn rd a b ha hb hcarry =>
    have hresult := (alu_same_but_drawn (a (s.reflag g n)) (b (s.reflag g n))
      (Config.undefinedV m) (Config.undefinedV n) fun hc => hagree.c (hcarry hc)).1
    simp [ha s f g m n hagree, hb s f g m n hagree, hresult]
  | aluCompare fn a b => simp
  | clearFlags => simp
  | load rd v hv => simp [hv s f g m n hagree]
  | store a v ha hv => simp [ha s f g m n hagree, hv s f g m n hagree]
  | push v hv => simp [hv s f g m n hagree]
  | pop rd => simp
  | swap rd v hv => simp [hv s f g m n hagree]
  | jump target htarget => simp [htarget s f g m n hagree]
  | call addr => simp
  | ret => simp
  | lcdSend k v hv => simp [hv s f g m n hagree]
  | setOut v hv => simp [hv s f g m n hagree]
  | halt hhlt => exact absurd hhlt hne
  | advance => simp

/-- The same two runs leave the same flags if the instruction writes flags. -/
theorem Effect.flags_same_but_drawn {i : Instr} {F : State → State} (h : Effect i F)
    (hwrites : writesFlags i = true) {f g : Flags} (hagree : FlagsAgree i f g) (s : State)
    (m n : Nat) :
    SameFlagsButDrawn i (F (s.reflag f m)).flags (F (s.reflag g n)).flags := by
  cases h with
  | aluToReg fn rd a b ha hb hcarry hundef | aluCompare fn a b ha hb hcarry hundef =>
    obtain ⟨-, hz, hc, hs, hv⟩ := alu_same_but_drawn (a (s.reflag g n)) (b (s.reflag g n))
      (Config.undefinedV m) (Config.undefinedV n) fun hc => hagree.c (hcarry hc)
    simpa [SameFlagsButDrawn, ha s f g m n hagree, hb s f g m n hagree, hundef]
      using ⟨hz, hc, hs, hv⟩
  | clearFlags => exact ⟨rfl, rfl, rfl, fun _ => rfl⟩
  | halt hhlt => simp [hhlt, writesFlags] at hwrites
  | _ => exact nomatch hwrites.symm.trans ‹writesFlags i = false›

/-- Outcomes that are alike but for flags and draws are the same but for what is drawn, once the
flags are made equal. -/
theorem sameButDrawn_of_alike {i : Instr} {t u : State}
    (h : ∀ x k, t.reflag x k = u.reflag x k) : SameButDrawn i t (u.setFlags t.flags) := by
  have hu : u.reflag t.flags t.draws = t := (h t.flags t.draws).symm
  have hpc : u.pc = t.pc := by simpa using congrArg State.pc hu
  refine ⟨?_, fun _ => rfl, fun _ => hpc⟩
  calc _ = (u.reflag t.flags t.draws).setPc t.pc := rfl
    _ = t := by rw [hu]; rfl

/-- Two runs of HLT differ, but for flags and draws, in PC alone (U7). -/
theorem hlt_sameButDrawn (s : State) (f g : Flags) (m n : Nat) {t u : State}
    (ht : exec .hlt (s.reflag f m) = .next t) (hu : exec .hlt (s.reflag g n) = .next u) :
    SameButDrawn .hlt t (u.setFlags t.flags) := by
  cases ht
  cases hu
  exact ⟨rfl, fun _ => rfl, fun hne => absurd rfl hne⟩

/-- Settles O17: the two runs are compared by the instruction's effect, HLT apart. -/
theorem flagsAreReadAndWrittenOnlyAsListed : Obligations.FlagsAreReadAndWrittenOnlyAsListed := by
  intro i s f g n hz hc hv hs
  have hagree : FlagsAgree i f g := ⟨hz, hc, hv, hs⟩
  obtain ⟨F, hF, hexec⟩ := exec_hasEffect i
  refine ⟨F (s.reflag f s.draws), F (s.reflag g n), hexec _, hexec _, ?_, ?_, ?_⟩
  · by_cases hhlt : i = .hlt
    · subst hhlt
      exact hlt_sameButDrawn s f g s.draws n (hexec _) (hexec _)
    · exact sameButDrawn_of_alike (hF.alike_but_flags hhlt hagree s s.draws n)
  · exact fun hwrites => hF.flags_same_but_drawn hwrites hagree s s.draws n
  · exact fun hkeeps =>
      ⟨(hF.writtenAsListed _).flags hkeeps, (hF.writtenAsListed _).flags hkeeps⟩

/-! ### The LCD trace -/

/-- An effect leaves the LCD trace or appends one byte to it. -/
theorem Effect.lcd {i : Instr} {F : State → State} (h : Effect i F) (s : State) :
    (F s).lcd = s.lcd ∨ ∃ b, (F s).lcd = s.lcd ++ [b] := by
  cases h with
  | lcdSend k v => exact .inr ⟨⟨k, v s⟩, rfl⟩
  | _ => left; simp

/-- Settles O19: the instruction that the step runs has one of the effects. -/
theorem lcdTraceOnlyGrows : Obligations.LcdTraceOnlyGrows := by
  intro s t hstep
  obtain ⟨-, op, arg, i, -, -, hexec⟩ := step_next hstep
  obtain ⟨F, hF, hF_exec⟩ := exec_hasEffect i
  obtain rfl : F s = t := by simpa [hF_exec] using hexec
  obtain hkept | ⟨b, happended⟩ := hF.lcd s
  · exact ⟨[], by simp [hkept], Nat.zero_le 1⟩
  · exact ⟨[b], happended, Nat.le_refl 1⟩

/-! ### The stack as a list -/

section Stack
variable {s t : State} {vs ws : List Byte} {v : Byte}

theorem stackHolds_of_same (hsp : t.sp = s.sp) (hstack : SameStack s t)
    (h : Safety.StackHolds s vs) : Safety.StackHolds t vs := by
  intro k hk
  rw [hsp, hstack]
  exact h k hk

/-- The stack holds a nonempty list when its top is the first entry and the stack after a pop holds
the rest. -/
theorem stackHolds_cons_iff :
    Safety.StackHolds s (v :: ws) ↔ s.top = v ∧ Safety.StackHolds s.dropTop ws := by
  have haddr (k : Nat) : s.sp + 1 + 1 + BitVec.ofNat 8 k = s.sp + 1 + BitVec.ofNat 8 (k + 1) := by
    bv_omega
  have hcell (k : Nat) := congrArg s.stackByte (haddr k)
  constructor
  · intro h
    have hfirst : s.stackByte (s.sp + 1 + 0#8) = v := h 0 (Nat.succ_pos _)
    exact ⟨by simpa [State.top, State.topAddr] using hfirst,
      fun k hk => (hcell k).trans (h (k + 1) (Nat.succ_lt_succ hk))⟩
  · rintro ⟨htop, hrest⟩ k hk
    cases k with
    | zero => simpa [State.top, State.topAddr] using htop
    | succ k => exact (hcell k).symm.trans (hrest k (Nat.lt_of_succ_lt_succ hk))

theorem stackHolds_take (n : Nat) (h : Safety.StackHolds s vs) :
    Safety.StackHolds s (vs.take n) := by
  intro k hk
  rw [List.getElem_take]
  exact h k _

/-- Fewer than 256 entries leave the cell at SP free: writing it changes none of them. -/
theorem stackHolds_of_same_but_free_cell (hlen : vs.length < 256) (hsp : t.sp = s.sp)
    (hcells : ∀ q, q ≠ s.sp → t.stackByte q = s.stackByte q) (h : Safety.StackHolds s vs) :
    Safety.StackHolds t vs := by
  intro k hk
  have hentry : s.sp + 1 + BitVec.ofNat 8 k ≠ s.sp := by bv_omega
  rw [hsp, hcells _ hentry]
  exact h k hk

/-- A push puts its byte in front; a full stack loses the oldest entry. -/
theorem stackHolds_push (v : Byte) (h : Safety.StackHolds s vs) :
    Safety.StackHolds (s.push v) ((v :: vs).take 256) := by
  rw [List.take_succ_cons, stackHolds_cons_iff]
  refine ⟨s.push_top v, stackHolds_of_same_but_free_cell ?_ (s.push_dropTop_sp v) ?_
    (stackHolds_take 255 h)⟩
  · have := List.length_take_le 255 vs
    omega
  · intro q hq
    rw [State.dropTop_stackByte, State.push_stackByte, if_neg hq]

/-- Replacing the top replaces the first entry. -/
theorem stackHolds_setTop (x : Byte) (hlen : (v :: ws).length ≤ 256)
    (h : Safety.StackHolds s (v :: ws)) : Safety.StackHolds (s.setTop x) (x :: ws) := by
  rw [stackHolds_cons_iff] at h ⊢
  refine ⟨?_, stackHolds_of_same_but_free_cell (s := s.dropTop) hlen rfl ?_ h.2⟩
  · exact s.storeStack_stackByte_same s.topAddr x
  · intro q hq
    have hq : q ≠ s.topAddr := hq
    rw [State.dropTop_stackByte, State.setTop_stackByte, if_neg hq, State.dropTop_stackByte]

theorem stackHolds_setReg_iff (rd : Reg) (b : Byte) :
    Safety.StackHolds (s.setReg rd b) vs ↔ Safety.StackHolds s vs := by
  cases rd <;> rfl

/-- An instruction that neither moves SP nor writes the stack bank keeps the list. -/
theorem exec_keeps_stackHolds {i : Instr} (hsp : movesSp i = false) (hstack : writesStack i = false)
    (h : Safety.StackHolds s vs) : ∃ t, exec i s = .next t ∧ Safety.StackHolds t vs := by
  obtain ⟨F, hF, hexec⟩ := exec_hasEffect i
  have hframe := hF.writtenAsListed s
  exact ⟨F s, hexec s, stackHolds_of_same (hframe.sp hsp) (hframe.stack hstack) h⟩

end Stack

/-- Settles O43: the five stack instructions by the laws of their stack operation, all others by the
frame. -/
theorem stackIsACircularLastInFirstOutBuffer :
    Obligations.StackIsACircularLastInFirstOutBuffer := by
  intro i s vs hlen h
  cases i with
  | push ra => exact ⟨_, rfl, stackHolds_push (s.reg ra) h⟩
  | jal addr => exact ⟨_, rfl, stackHolds_push s.nextPc h⟩
  | pop rd =>
    refine ⟨_, rfl, ?_⟩
    rintro v ws rfl
    obtain ⟨htop, hrest⟩ := stackHolds_cons_iff.mp h
    exact ⟨by simp [htop], (stackHolds_setReg_iff rd s.top).mpr hrest⟩
  | ret =>
    refine ⟨_, rfl, ?_⟩
    rintro v ws rfl
    exact stackHolds_cons_iff.mp h
  | swap rd ra =>
    refine ⟨_, rfl, ?_⟩
    rintro v ws rfl
    have htop := (stackHolds_cons_iff.mp h).1
    exact ⟨by simp [htop],
      (stackHolds_setReg_iff rd s.top).mpr (stackHolds_setTop (s.reg ra) hlen h)⟩
  | _ => exact exec_keeps_stackHolds rfl rfl h

/-! ### Halting and reset -/

/-- Settles O6: `step` asks for the halted mark before it fetches. -/
theorem haltedMachineMakesNoStep : Obligations.HaltedMachineMakesNoStep := by
  refine ⟨fun s => ⟨_, rfl, rfl⟩, fun s hhalted => ?_⟩
  have hstep : step s = .fault .halted := by simp [step, hhalted]
  refine ⟨hstep, fun t ht => ?_⟩
  have hrunning := (step_next ht).1
  simp [hhalted] at hrunning

/-- Settles O11: each field by the definition of `State.launch`. -/
theorem launchLeavesTheResetValues : Obligations.LaunchLeavesTheResetValues := by
  intro l
  exact ⟨rfl, rfl, rfl, rfl, rfl, rfl, rfl, rfl, rfl, rfl, rfl, rfl, rfl, rfl⟩

/-- Settles O12: at a launch the banks are those the launch gives. -/
theorem resetBanksAreCanonical : Obligations.ResetBanksAreCanonical :=
  ⟨State.reset_banksWf, fun l hdata hstack hhigh hlow =>
    (State.launch l).banksWf_iff.mpr ⟨hdata, hstack, hhigh, hlow⟩⟩

end Sys2Proof.Machine
end

/-! ## The memory family (20_memory.md): what an instruction reads of the banks and leaves in them -/

section
namespace Sys2Proof.Machine
open Sys2Proof.Claims

/-! ### A state with other banks -/

/-- The state with other contents of the four banks. -/
def State.withBanks (s : State) (d k h l : Memory) : State :=
  { s with data := d, stack := k, progHigh := h, progLow := l }

section WithBanks
variable (s : State) (d k h l : Memory)

@[simp] theorem State.withBanks_data : (s.withBanks d k h l).data = d := rfl
@[simp] theorem State.withBanks_stack : (s.withBanks d k h l).stack = k := rfl
@[simp] theorem State.withBanks_progHigh : (s.withBanks d k h l).progHigh = h := rfl
@[simp] theorem State.withBanks_progLow : (s.withBanks d k h l).progLow = l := rfl

theorem State.withBanks_self : s.withBanks s.data s.stack s.progHigh s.progLow = s := rfl

theorem State.withBanks_setReg (r : Reg) (v : Byte) :
    (s.withBanks d k h l).setReg r v = (s.setReg r v).withBanks d k h l := by
  cases r <;> rfl

theorem aluFlags_withBanks (f : Funct) (a b : Byte) :
    aluFlags (s.withBanks d k h l) f a b = (aluFlags s f a b).withBanks d k h l := by
  unfold aluFlags; split <;> rfl

end WithBanks

/-- The ALU and its destination are outside the banks. -/
theorem aluToReg_withBanks {s t : State} {f : Funct} {rd : Reg} {a b : Byte} {d k h l : Memory}
    (ht : aluToReg s f rd a b = .next t) :
    aluToReg (s.withBanks d k h l) f rd a b = .next (t.withBanks d k h l) := by
  cases ht
  rw [aluToReg, aluFlags_withBanks, State.withBanks_setReg]
  rfl

theorem aluCompare_withBanks {s t : State} {f : Funct} {a b : Byte} {d k h l : Memory}
    (ht : aluCompare s f a b = .next t) :
    aluCompare (s.withBanks d k h l) f a b = .next (t.withBanks d k h l) := by
  cases ht
  rw [aluCompare, aluFlags_withBanks]
  rfl

/-! ### What an instruction leaves in the banks -/

/-- What the instruction, executed in `s`, makes of a data bank (20_memory.md R41). -/
def dataAfter (i : Instr) (s : State) (m : Memory) : Memory :=
  match dataStoreAddr i s, dataStoreByte i s with
  | some a, some v => m.write a.toNat v
  | _, _ => m

/-- What the instruction, executed in `s`, makes of a stack bank (20_memory.md R41). -/
def stackAfter (i : Instr) (s : State) (m : Memory) : Memory :=
  match i with
  | .push ra => m.write s.pushAddr.toNat (s.reg ra)
  | .jal _ => m.write s.pushAddr.toNat s.nextPc
  | .swap _ ra => m.write s.topAddr.toNat (s.reg ra)
  | _ => m

theorem dataAfter_wf (i : Instr) (s : State) {m : Memory} (h : m.wf = true) :
    (dataAfter i s m).wf = true := by
  unfold dataAfter
  split
  · exact Memory.wf_write _ _ _ h
  · exact h

theorem stackAfter_wf (i : Instr) (s : State) {m : Memory} (h : m.wf = true) :
    (stackAfter i s m).wf = true := by
  unfold stackAfter
  split
  case h_4 => exact h
  all_goals exact Memory.wf_write _ _ _ h

/-- Exchanging the banks, but for those that the instruction reads, changes nothing of its outcome
but the banks, and what it leaves in each is computed from that bank and the state outside the
banks. -/
theorem exec_withBanks {i : Instr} {s t : State} {d k h l : Memory}
    (hdata : readsData i = true → d = s.data) (hstack : readsStack i = true → k = s.stack)
    (ht : exec i s = .next t) :
    exec i (s.withBanks d k h l) =
      .next (t.withBanks (dataAfter i s d) (stackAfter i s k) h l) := by
  cases i with
  | move | add | sub | addc | subb | and | or | not | xor | nand | nor | xnor
  | sll | srl | sra | rol | addi | andi => exact aluToReg_withBanks ht
  | cmpMove | cmpAdd | cmpSub | cmpAddc | cmpSubb | cmpAnd | cmpOr | cmpNot | cmpXor | cmpNand
  | cmpNor | cmpXnor | cmpSll | cmpSrl | cmpSra | cmpRol | cmpSubi | cmpAndi =>
    exact aluCompare_withBanks ht
  | li rd =>
    cases ht
    cases rd <;> rfl
  | ldAddr rd | ldReg rd =>
    obtain rfl := hdata rfl
    cases ht
    cases rd <;> rfl
  | pop rd | swap rd =>
    obtain rfl := hstack rfl
    cases ht
    cases rd <;> rfl
  | lcdAddr | decAddr =>
    obtain rfl := hdata rfl
    cases ht
    rfl
  | ret =>
    obtain rfl := hstack rfl
    cases ht
    rfl
  | _ =>
    cases ht
    rfl

/-- The four banks after an instruction. -/
theorem exec_banks {i : Instr} {s t : State} (ht : exec i s = .next t) :
    t.data = dataAfter i s s.data ∧ t.stack = stackAfter i s s.stack ∧
    t.progHigh = s.progHigh ∧ t.progLow = s.progLow := by
  have hself := exec_withBanks (h := s.progHigh) (l := s.progLow) (fun _ => rfl) (fun _ => rfl) ht
  rw [State.withBanks_self, ht] at hself
  injection hself with heq
  exact ⟨by simpa using congrArg State.data heq, by simpa using congrArg State.stack heq,
    by simpa using congrArg State.progHigh heq, by simpa using congrArg State.progLow heq⟩

/-! ### The canonical form of the banks -/

theorem exec_keeps_banksWf {i : Instr} {s t : State} (hwf : s.banksWf = true)
    (ht : exec i s = .next t) : t.banksWf = true := by
  obtain ⟨hdata, hstack, hhigh, hlow⟩ := exec_banks ht
  obtain ⟨hwf_data, hwf_stack, hwf_high, hwf_low⟩ := s.banksWf_iff.mp hwf
  rw [State.banksWf_iff, hdata, hstack, hhigh, hlow]
  exact ⟨dataAfter_wf i s hwf_data, stackAfter_wf i s hwf_stack, hwf_high, hwf_low⟩

/-- Settles O14: the step runs one instruction, which changes a bank only by writes at bytes. -/
theorem stepKeepsBanksCanonical : Obligations.StepKeepsBanksCanonical := by
  intro s t hwf hstep
  obtain ⟨-, op, arg, i, -, -, hexec⟩ := step_next hstep
  exact exec_keeps_banksWf hwf hexec

/-! ### Two runs from states with different banks -/

/-- Whatever has been drawn before, the outcomes are the same but for what is drawn: the case of
`flagsAreReadAndWrittenOnlyAsListed` in which the flags are equal. -/
theorem exec_sameButDrawn (i : Instr) (s : State) (n : Nat) :
    ∃ t u, exec i s = .next t ∧ exec i { s with draws := n } = .next u ∧ SameButDrawn i t u := by
  obtain ⟨t, u, ht, hu, ⟨hsame, -, hpc⟩, hwritten, hkept⟩ :=
    flagsAreReadAndWrittenOnlyAsListed i s s.flags s.flags n (fun _ => rfl) (fun _ => rfl)
      (fun _ => rfl) (fun _ => rfl)
  have hflags : SameFlagsButDrawn i t.flags u.flags := by
    cases hw : writesFlags i with
    | true => exact hwritten hw
    | false =>
      obtain ⟨htf, huf⟩ := hkept hw
      rw [htf, huf]
      exact ⟨rfl, rfl, rfl, fun _ => rfl⟩
  obtain ⟨hz, hc, hs, hv⟩ := hflags
  have hmerged : Flags.mk u.flags.z u.flags.c t.flags.v u.flags.s = t.flags := by
    rw [← hz, ← hc, ← hs]
  have hstate := congrArg (fun f => (u.reflag f t.draws).setPc t.pc) hmerged
  exact ⟨t, u, ht, hu, hstate.trans hsame, fun hdef => (hv hdef).symm, hpc⟩

/-- Outcomes that are the same but for what is drawn have equal banks. -/
theorem sameButDrawn_banks {i : Instr} {t u : State} (hsame : SameButDrawn i t u) :
    u.data = t.data ∧ u.stack = t.stack ∧ u.progHigh = t.progHigh ∧ u.progLow = t.progLow :=
  ⟨by simpa using congrArg State.data hsame.1, by simpa using congrArg State.stack hsame.1,
    by simpa using congrArg State.progHigh hsame.1, by simpa using congrArg State.progLow hsame.1⟩

theorem sameButDrawn_withBanks {i : Instr} {t u : State} {d k h l : Memory}
    (hd : d = t.data) (hk : k = t.stack) (hh : h = t.progHigh) (hl : l = t.progLow)
    (hsame : SameButDrawn i t u) : SameButDrawn i t (u.withBanks d k h l) := by
  obtain ⟨hdata, hstack, hhigh, hlow⟩ := sameButDrawn_banks hsame
  rw [hd, hk, hh, hl, ← hdata, ← hstack, ← hhigh, ← hlow, State.withBanks_self]
  exact hsame

/-- Settles O16: the draws are exchanged first, then one bank, and the outcome with that bank put
back has the banks of the first run. -/
theorem banksAreReadOnlyAsListed : Obligations.BanksAreReadOnlyAsListed := by
  intro i s d k h l n
  obtain ⟨t, u, ht, hu, hsame⟩ := exec_sameButDrawn i s n
  obtain ⟨hdata_u, hstack_u, hhigh_u, hlow_u⟩ := exec_banks hu
  obtain ⟨hdata_t, hstack_t, hhigh_t, hlow_t⟩ := sameButDrawn_banks hsame
  have hdata := hdata_u.symm.trans hdata_t
  have hstack := hstack_u.symm.trans hstack_t
  have hhigh := hhigh_u.symm.trans hhigh_t
  have hlow := hlow_u.symm.trans hlow_t
  have hexec (d k h l) (hd : readsData i = true → d = s.data)
      (hk : readsStack i = true → k = s.stack) :=
    exec_withBanks (s := { s with draws := n }) (h := h) (l := l) hd hk hu
  refine ⟨t, ht, fun hreads => ?_, fun hreads => ?_, ?_⟩
  · have hput := sameButDrawn_withBanks rfl hstack hhigh hlow hsame
    exact ⟨_, hexec d s.stack s.progHigh s.progLow (by simp [hreads]) (fun _ => rfl), hput⟩
  · have hput := sameButDrawn_withBanks hdata rfl hhigh hlow hsame
    exact ⟨_, hexec s.data k s.progHigh s.progLow (fun _ => rfl) (by simp [hreads]), hput⟩
  · have hput := sameButDrawn_withBanks hdata hstack rfl rfl hsame
    exact ⟨_, hexec s.data s.stack h l (fun _ => rfl) (fun _ => rfl), rfl, rfl, hput⟩

/-! ### A load after a store -/

/-- A store leaves its byte at its address. -/
theorem exec_store_dataByte {i : Instr} {s t : State} {a v : Byte}
    (haddr : dataStoreAddr i s = some a) (hbyte : dataStoreByte i s = some v)
    (ht : exec i s = .next t) : t.dataByte a = v := by
  cases i with
  | stAddr | stReg =>
    cases haddr
    cases hbyte
    cases ht
    exact State.storeData_dataByte_same _ _ _
  | _ => cases haddr

/-- An instruction that does not store to `a` keeps the byte there. -/
theorem exec_keeps_dataByte {i : Instr} {s t : State} {a : Byte}
    (haddr : dataStoreAddr i s ≠ some a) (ht : exec i s = .next t) :
    t.dataByte a = s.dataByte a := by
  cases i with
  | stAddr | stReg =>
    cases ht
    rw [State.advance_dataByte, State.storeData_dataByte, if_neg]
    rintro rfl
    exact haddr rfl
  | _ => exact (exec_writtenAsListed ht).data rfl a

theorem execAll_cons_eq_next {i : Instr} {is : List Instr} {s u : State}
    (h : execAll (i :: is) s = .next u) :
    ∃ t, exec i s = .next t ∧ execAll is t = .next u := by
  obtain ⟨F, -, hexec⟩ := exec_hasEffect i
  refine ⟨F s, hexec s, ?_⟩
  rwa [execAll, hexec s] at h

theorem execAll_keeps_dataByte {a : Byte} {is : List Instr} {s u : State}
    (hnever : NeverStoresTo a is s) (hu : execAll is s = .next u) :
    u.dataByte a = s.dataByte a := by
  induction is generalizing s with
  | nil =>
    cases hu
    rfl
  | cons i is ih =>
    obtain ⟨haddr, hrest⟩ := hnever
    obtain ⟨t, ht, hu⟩ := execAll_cons_eq_next hu
    calc u.dataByte a = t.dataByte a := ih (hrest t ht) hu
      _ = s.dataByte a := exec_keeps_dataByte haddr ht

/-- Settles O42: the byte stands at its address after the store and is kept up to the load. -/
theorem loadReturnsTheLatestStore : Obligations.LoadReturnsTheLatestStore := by
  intro store a v rd is s t u haddr hbyte ht hnever hu
  have hv : u.dataByte a = v :=
    (execAll_keeps_dataByte hnever hu).trans (exec_store_dataByte haddr hbyte ht)
  refine ⟨⟨_, rfl, ?_⟩, ?_⟩
  · rw [State.advance_reg, State.setReg_reg_same]
    exact hv
  · rintro ra rfl
    refine ⟨_, rfl, ?_⟩
    rw [State.advance_reg, State.setReg_reg_same]
    exact hv

end Sys2Proof.Machine
end

/-! ## The encoding family (30_encoding.md): words, the decoder, and a program text in its banks -/

section
namespace Sys2Proof

/-! ### The fields that a mask leaves of a byte -/

section Masks
variable {op arg : Byte} {m : BitVec 4} {d a b : BitVec 2} {f g : Funct}

@[simp] theorem and_FF (w : Byte) : w &&& 0xFF#8 = w := BitVec.and_allOnes

@[simp] theorem eq_opcodeByte_iff :
    op = opcodeByte m d a ↔ majorBits op = m ∧ destBits op = d ∧ firstBits op = a := by
  constructor
  · rintro rfl
    simp
  · rintro ⟨rfl, rfl, rfl⟩
    exact (opcodeByte_fields op).symm

/-- The opcode mask of the forms whose field A is don't care. -/
@[simp] theorem fields_and_FC : ∀ op : Byte,
    majorBits (op &&& 0xFC#8) = majorBits op ∧ destBits (op &&& 0xFC#8) = destBits op ∧
      firstBits (op &&& 0xFC#8) = 0b00#2 := by
  decide

/-- The opcode mask of PUSH, which keeps the high bit of field D alone (R68). -/
@[simp] theorem fields_and_FB : ∀ op : Byte,
    majorBits (op &&& 0xFB#8) = majorBits op ∧
      destBits (op &&& 0xFB#8) = destBits op &&& 0b10#2 ∧
      firstBits (op &&& 0xFB#8) = firstBits op := by
  decide

@[simp] theorem and_two_eq_two_iff : ∀ d : BitVec 2,
    d &&& 0b10#2 = 0b10#2 ↔ d = 0b10#2 ∨ d = 0b11#2 := by
  decide

theorem functByte_eq_functByte_iff : functByte f a = functByte g b ↔ f = g ∧ a = b := by
  constructor
  · intro h
    exact ⟨by simpa using congrArg (fun w => Funct.ofBits (functBits w)) h,
      by simpa using congrArg secondBits h⟩
  · rintro ⟨rfl, rfl⟩
    rfl

/-- The Register format of a function of two operands: Funct and field B (R62). -/
@[simp] theorem and_F3_eq_functByte_iff :
    arg &&& 0xF3#8 = functByte f b ↔ Funct.ofBits (functBits arg) = f ∧ secondBits arg = b := by
  have hmask : ∀ arg : Byte,
      arg &&& 0xF3#8 = functByte (Funct.ofBits (functBits arg)) (secondBits arg) := by
    decide
  rw [hmask, functByte_eq_functByte_iff]

/-- The Register format of a function of one operand: Funct alone (R68). -/
@[simp] theorem and_F0_eq_functByte_iff :
    arg &&& 0xF0#8 = functByte f 0#2 ↔ Funct.ofBits (functBits arg) = f := by
  have hmask : ∀ arg : Byte, arg &&& 0xF0#8 = functByte (Funct.ofBits (functBits arg)) 0#2 := by
    decide
  rw [hmask, functByte_eq_functByte_iff]
  exact and_iff_left rfl

/-- ST-Reg looks at field B alone (decision D11, log entry 14). -/
@[simp] theorem and_03_eq_iff : arg &&& 0x03#8 = 0#6 ++ b ↔ secondBits arg = b := by
  revert arg b
  decide

@[simp] theorem secondBits_zero_append : secondBits (0#6 ++ b) = b := by
  revert b
  decide

/-- CLF looks at bits 7:6 alone (R70). -/
@[simp] theorem and_C0_eq_iff : arg &&& 0xC0#8 = 0x40#8 ↔ clfBits arg = 0b01#2 := by
  revert arg
  decide

end Masks

/-! ### From the care bits to the instruction -/

/-- The word and the encoding of the instruction agree on the bits that the hardware looks at
(R66, R68): the right-hand side of `Obligations.DecodeReadsExactlyTheCareBits`. -/
@[simp] def AgreesOnCareBits (i : Instr) (op arg : Byte) : Prop :=
  (op &&& (careMask i).1, arg &&& (careMask i).2) = encode i

/-- The encoder writes 0 in every don't-care position. -/
theorem agreesOnCareBits_encode (i : Instr) : AgreesOnCareBits i (encode i).1 (encode i).2 := by
  cases i <;> simp [careMask, encode, encodeAlu, encodeCmp]

/-- Agreement fixes every field that the decoder looks at on its way to the instruction; the cases
follow the decoder's parts. -/
theorem decode_of_agreesOnCareBits {i : Instr} {op arg : Byte} (h : AgreesOnCareBits i op arg) :
    decode op arg = .instr i := by
  cases i with
  | move | add | sub | addc | subb | and | or | not | xor | nand | nor | xnor
  | sll | srl | sra | rol =>
    simp_all [careMask, encode, encodeAlu, decode, aluInstr]
  | cmpMove | cmpAdd | cmpSub | cmpAddc | cmpSubb | cmpAnd | cmpOr | cmpNot | cmpXor | cmpNand
  | cmpNor | cmpXnor | cmpSll | cmpSrl | cmpSra | cmpRol =>
    simp_all [careMask, encode, encodeCmp, decode, decodeCompare, cmpInstr]
  | cmpSubi | cmpAndi | clf => simp_all [careMask, encode, decode, decodeCompare]
  | addi | andi | li | ldAddr | ldReg | pop | swap => simp_all [careMask, encode, decode]
  | push ra =>
    obtain ⟨hmajor, hdest | hdest, hfirst⟩ : majorBits op = 0b0101#4 ∧
        (destBits op = 0b10#2 ∨ destBits op = 0b11#2) ∧ firstBits op = ra.toBits := by
      simpa [careMask, encode] using h
    all_goals simp [decode, decodeStore, hmajor, hdest, hfirst]
  | stAddr | stReg => simp_all [careMask, encode, decode, decodeStore]
  | j | jr | jal | ret => simp_all [careMask, encode, decode, decodeJump]
  | _ => simp_all [careMask, encode, decode, byExtended]

/-! ### From the decoder's parts to the care bits -/

section Parts
variable {op arg : Byte}

theorem majorBits_of_toNat {k : Nat} (h : (majorBits op).toNat = k) :
    majorBits op = BitVec.ofNat 4 k := by
  rw [← h, BitVec.ofNat_toNat, BitVec.setWidth_eq]

theorem destBits_cases (op : Byte) :
    destBits op = 0b00#2 ∨ destBits op = 0b01#2 ∨ destBits op = 0b10#2 ∨
      destBits op = 0b11#2 := by
  have hbits : ∀ d : BitVec 2, d = 0b00#2 ∨ d = 0b01#2 ∨ d = 0b10#2 ∨ d = 0b11#2 := by decide
  exact hbits (destBits op)

theorem agreesOnCareBits_aluInstr (hmajor : majorBits op = 0b0000#4) :
    AgreesOnCareBits (aluInstr (Funct.ofBits (functBits arg)) (Reg.ofBits (destBits op))
      (Reg.ofBits (firstBits op)) (Reg.ofBits (secondBits arg))) op arg := by
  generalize hf : Funct.ofBits (functBits arg) = f
  cases f <;> simp [aluInstr, careMask, encode, encodeAlu, hmajor, hf]

theorem agreesOnCareBits_cmpInstr (hmajor : majorBits op = 0b0011#4)
    (hdest : destBits op = 0b00#2) :
    AgreesOnCareBits (cmpInstr (Funct.ofBits (functBits arg)) (Reg.ofBits (firstBits op))
      (Reg.ofBits (secondBits arg))) op arg := by
  generalize hf : Funct.ofBits (functBits arg) = f
  cases f <;> simp [cmpInstr, careMask, encode, encodeCmp, hmajor, hdest, hf]

theorem agreesOnCareBits_decodeStore (hmajor : majorBits op = 0b0101#4) :
    AgreesOnCareBits (decodeStore op arg) op arg := by
  obtain hdest | hdest | hdest | hdest := destBits_cases op <;>
    simp [decodeStore, careMask, encode, hmajor, hdest]

theorem agreesOnCareBits_decodeJump (hmajor : majorBits op = 0b1010#4) :
    AgreesOnCareBits (decodeJump op arg) op arg := by
  obtain hdest | hdest | hdest | hdest := destBits_cases op <;>
    simp [decodeJump, careMask, encode, hmajor, hdest]

theorem agreesOnCareBits_byExtended {i0 i1 i2 i3 : Instr}
    (h0 : destBits op = 0b00#2 → AgreesOnCareBits i0 op arg)
    (h1 : destBits op = 0b01#2 → AgreesOnCareBits i1 op arg)
    (h2 : destBits op = 0b10#2 → AgreesOnCareBits i2 op arg)
    (h3 : destBits op = 0b11#2 → AgreesOnCareBits i3 op arg) :
    AgreesOnCareBits (byExtended op i0 i1 i2 i3) op arg := by
  unfold byExtended
  obtain hdest | hdest | hdest | hdest := destBits_cases op <;> rw [hdest]
  · exact h0 hdest
  · exact h1 hdest
  · exact h2 hdest
  · exact h3 hdest

/-- The reserved words by the fields that the decoder looks at (R70). -/
theorem wordReserved_iff_fields :
    wordReserved op arg = true ↔
      majorBits op = 0b0011#4 ∧ destBits op = 0b11#2 ∧ clfBits arg ≠ 0b01#2 := by
  have hop : ∀ op : Byte, op.extractLsb' 2 6 = 0b001111#6 ↔
      majorBits op = 0b0011#4 ∧ destBits op = 0b11#2 := by
    decide
  simp [wordReserved, hop, clfBits, and_assoc]

theorem decodeCompare_agrees_or_reserved (hmajor : majorBits op = 0b0011#4) :
    (∃ i, decodeCompare op arg = .instr i ∧ AgreesOnCareBits i op arg) ∨
      wordReserved op arg = true := by
  unfold decodeCompare
  obtain hdest | hdest | hdest | hdest := destBits_cases op
  · simp only [hdest]
    exact .inl ⟨_, rfl, agreesOnCareBits_cmpInstr hmajor hdest⟩
  · simp [careMask, encode, hmajor, hdest]
  · simp [careMask, encode, hmajor, hdest]
  · by_cases hclf : clfBits arg = 0b01#2
    · simp [careMask, encode, hmajor, hdest, hclf]
    · exact .inr (wordReserved_iff_fields.mpr ⟨hmajor, hdest, hclf⟩)

/-! ### What the decoder answers on a word -/

/-- Everything the decoder can answer: on a word that is not reserved, an instruction whose care
bits are those of the word. The cases are those of R69, by the major opcode. -/
theorem decode_agrees_or_reserved (op arg : Byte) :
    (∃ i, decode op arg = .instr i ∧ AgreesOnCareBits i op arg) ∨
      wordReserved op arg = true := by
  unfold decode
  dsimp only
  split
  case h_1 hmajor =>
    exact .inl ⟨_, rfl, agreesOnCareBits_aluInstr (majorBits_of_toNat hmajor)⟩
  case h_4 hmajor => exact decodeCompare_agrees_or_reserved (majorBits_of_toNat hmajor)
  case h_6 hmajor =>
    exact .inl ⟨_, rfl, agreesOnCareBits_decodeStore (majorBits_of_toNat hmajor)⟩
  case h_11 hmajor =>
    exact .inl ⟨_, rfl, agreesOnCareBits_decodeJump (majorBits_of_toNat hmajor)⟩
  all_goals refine .inl ⟨_, rfl, ?_⟩
  case h_2 hmajor | h_3 hmajor | h_5 hmajor | h_7 hmajor | h_8 hmajor | h_9 hmajor
    | h_10 hmajor =>
    simp [careMask, encode, majorBits_of_toNat hmajor]
  case h_12 hmajor | h_13 hmajor | h_14 hmajor | h_15 hmajor =>
    apply agreesOnCareBits_byExtended <;> intro hdest <;>
      simp [careMask, encode, majorBits_of_toNat hmajor, hdest]
  case h_16 =>
    have hmajor : (majorBits op).toNat = 15 := by
      simp only [imp_false] at *
      omega
    apply agreesOnCareBits_byExtended <;> intro hdest <;>
      simp [careMask, encode, majorBits_of_toNat hmajor, hdest]

theorem decode_of_wordReserved (h : wordReserved op arg = true) :
    decode op arg = .reserved op arg := by
  obtain ⟨hmajor, hdest, hclf⟩ := wordReserved_iff_fields.mp h
  simp [decode, decodeCompare, hmajor, hdest, hclf]

theorem agreesOnCareBits_of_decode {i : Instr} (h : decode op arg = .instr i) :
    AgreesOnCareBits i op arg := by
  obtain ⟨j, hj, hagrees⟩ | hreserved := decode_agrees_or_reserved op arg
  · obtain rfl : j = i := by simpa [hj] using h
    exact hagrees
  · simp [decode_of_wordReserved hreserved] at h

end Parts

/-- Settles O1: a decoded word has the care bits of its instruction, and the care bits decide what
the decoder reads. -/
theorem decodeReadsExactlyTheCareBits : Obligations.DecodeReadsExactlyTheCareBits :=
  fun _ _ _ => ⟨agreesOnCareBits_of_decode, decode_of_agreesOnCareBits⟩

/-- Settles O2: an encoding has its own instruction's care bits. -/
theorem decodeOfEncodeIsIdentity : Obligations.DecodeOfEncodeIsIdentity :=
  fun i => decode_of_agreesOnCareBits (agreesOnCareBits_encode i)

/-- The reserved words as R70 prints them. -/
theorem wordReserved_iff {op arg : Byte} :
    wordReserved op arg = true ↔
      op.extractLsb' 2 6 = 0b001111#6 ∧ arg.extractLsb' 6 2 ≠ 0b01#2 := by
  simp [wordReserved]

/-- Settles O3: by what the decoder answers on a reserved word and on any other. -/
theorem onlyReservedWordsAreRejected : Obligations.OnlyReservedWordsAreRejected := by
  intro op arg
  rw [← wordReserved_iff]
  refine ⟨decode_of_wordReserved, fun hdefined => ?_⟩
  obtain ⟨i, hi, -⟩ | hreserved := decode_agrees_or_reserved op arg
  · exact ⟨i, hi⟩
  · exact absurd hreserved hdefined

end Sys2Proof

namespace Sys2Proof.Machine

/-! ### A text placed in a bank -/

/-- A bank after writing one byte of each word at `a`, `a + 1`, and so on, modulo 256: what
`State.placeFrom` makes of each program bank (`State.placeFrom_eq`). -/
def Memory.placeBytes (byte : Byte × Byte → Byte) (m : Memory) (a : Byte) :
    List (Byte × Byte) → Memory
  | [] => m
  | w :: ws => (m.write a.toNat (byte w)).placeBytes byte (a + 1) ws

theorem State.placeFrom_eq (s : State) (a : Byte) (p : List (Byte × Byte)) :
    s.placeFrom a p =
      { s with
        progHigh := s.progHigh.placeBytes Prod.fst a p
        progLow := s.progLow.placeBytes Prod.snd a p } := by
  induction p generalizing s a with
  | nil => rfl
  | cons w ws ih => exact ih (s.placeWord a w) (a + 1)

section PlaceBytes
variable {byte : Byte × Byte → Byte} {m : Memory} {a : Byte} {ws : List (Byte × Byte)} {n : Nat}

/-- A text that ends at the bank's last address or before leaves the addresses outside it as they
were. -/
theorem Memory.read_placeBytes_outside (hfits : a.toNat + ws.length ≤ 256)
    (hn : n < a.toNat ∨ a.toNat + ws.length ≤ n) : (m.placeBytes byte a ws).read n = m.read n := by
  induction ws generalizing m a with
  | nil => rfl
  | cons w ws ih =>
    rw [List.length_cons] at hfits hn
    have hnext : (a + 1).toNat = (a.toNat + 1) % 256 := BitVec.toNat_add a 1
    calc ((m.write a.toNat (byte w)).placeBytes byte (a + 1) ws).read n
        = (m.write a.toNat (byte w)).read n := ih (by omega) (by omega)
      _ = m.read n := Memory.read_write_other m a.toNat n (byte w) (by omega)

/-- The byte of word `n` stands `n` addresses after the first. -/
theorem Memory.read_placeBytes_inside (hfits : a.toNat + ws.length ≤ 256) (hn : n < ws.length) :
    (m.placeBytes byte a ws).read (a.toNat + n) = some (byte ws[n]) := by
  induction ws generalizing m a n with
  | nil => cases hn
  | cons w ws ih =>
    rw [List.length_cons] at hfits hn
    have hnext : (a + 1).toNat = (a.toNat + 1) % 256 := BitVec.toNat_add a 1
    cases n with
    | zero =>
      calc ((m.write a.toNat (byte w)).placeBytes byte (a + 1) ws).read a.toNat
          = (m.write a.toNat (byte w)).read a.toNat :=
            Memory.read_placeBytes_outside (by omega) (by omega)
        _ = some (byte w) := Memory.read_write_same m a.toNat (byte w)
    | succ n =>
      have haddr : a.toNat + (n + 1) = (a + 1).toNat + n := by omega
      rw [haddr]
      exact ih (by omega) (by omega)

end PlaceBytes

/-- Settles O13: each bank has its bytes of the text placed from address 0 on. -/
theorem loadedProgramStandsInBothBanks : Obligations.LoadedProgramStandsInBothBanks := by
  intro s p hlen
  have hload : s.loadProgram p = s.placeFrom 0 p := by
    rw [State.loadProgram, List.take_of_length_le hlen]
  have hfits : (0 : Byte).toNat + p.length ≤ 256 := by simpa using hlen
  rw [hload, State.placeFrom_eq]
  refine ⟨fun n hn => ?_, fun n hn => ?_, rfl⟩
  · have hinside (byte : Byte × Byte → Byte) (m : Memory) :=
      Memory.read_placeBytes_inside (byte := byte) (m := m) hfits hn
    have haddr : (0 : Byte).toNat + n = n := Nat.zero_add n
    rw [haddr] at hinside
    exact ⟨hinside Prod.fst s.progHigh, hinside Prod.snd s.progLow⟩
  · have hbeyond : n < (0 : Byte).toNat ∨ (0 : Byte).toNat + p.length ≤ n := by simpa using hn
    exact ⟨Memory.read_placeBytes_outside hfits hbeyond,
      Memory.read_placeBytes_outside hfits hbeyond⟩

/-! ### Stops at the fetch -/

theorem State.fetch_eq_none_iff {s : State} :
    s.fetch = none ↔
      s.progHigh.read s.pc.toNat = none ∨ s.progLow.read s.pc.toNat = none := by
  unfold State.fetch
  cases s.progHigh.read s.pc.toNat <;> cases s.progLow.read s.pc.toNat <;> simp

/-- Settles O7: with a byte missing, the fetch answers nothing. -/
theorem undefinedFetchFaults : Obligations.UndefinedFetchFaults := by
  intro s hrun hmissing
  have hfetch : s.fetch = none := State.fetch_eq_none_iff.mpr hmissing
  simp [step, hrun, hfetch]

/-- Settles O8: the word fetched is a reserved one, and the decoder answers it so. -/
theorem reservedWordIsRefused : Obligations.ReservedWordIsRefused := by
  intro s op arg hrun hhigh hlow hop harg
  have hfetch : s.fetch = some (op, arg) := State.fetch_eq_some_iff.mpr ⟨hhigh, hlow⟩
  have hdecode : decode op arg = .reserved op arg :=
    decode_of_wordReserved (wordReserved_iff.mpr ⟨hop, harg⟩)
  simp [step, hrun, hfetch, hdecode]

end Sys2Proof.Machine
end

/-! ## The arithmetic and logic family (40_alu.md): what the ALU instructions answer -/

section
namespace Sys2Proof

/-! ### The words of opcodes 0000, 0001 and 0011 -/

@[simp] theorem functBits_append_append : ∀ (f : BitVec 4) (x b : BitVec 2),
    functBits (f ++ x ++ b) = f := by
  decide

@[simp] theorem secondBits_append_append : ∀ (f : BitVec 4) (x b : BitVec 2),
    secondBits (f ++ x ++ b) = b := by
  decide

@[simp] theorem functBits_append : ∀ f x : BitVec 4, functBits (f ++ x) = f := by
  decide

/-- Opcode byte `0000DDAA`: the argument byte's Funct selects the ALU operation (R81). -/
theorem decode_aluWord (d a : BitVec 2) {arg : Byte} {f : Funct} {b : BitVec 2}
    (hf : Funct.ofBits (functBits arg) = f) (hb : secondBits arg = b) :
    decode (opcodeByte 0b0000#4 d a) arg =
      .instr (aluInstr f (Reg.ofBits d) (Reg.ofBits a) (Reg.ofBits b)) := by
  simp [decode, hf, hb]

/-- Opcode byte `001100AA`: the argument byte's Funct selects the compare operation (R100). -/
theorem decode_cmpWord (a : BitVec 2) {arg : Byte} {f : Funct} {b : BitVec 2}
    (hf : Funct.ofBits (functBits arg) = f) (hb : secondBits arg = b) :
    decode (opcodeByte 0b0011#4 0b00#2 a) arg =
      .instr (cmpInstr f (Reg.ofBits a) (Reg.ofBits b)) := by
  simp [decode, decodeCompare, hf, hb]

theorem decode_addiWord (d a : BitVec 2) (imm : Byte) :
    decode (opcodeByte 0b0001#4 d a) imm = .instr (.addi (Reg.ofBits d) (Reg.ofBits a) imm) := by
  simp [decode]

theorem decode_cmpSubiWord (a : BitVec 2) (imm : Byte) :
    decode (opcodeByte 0b0011#4 0b01#2 a) imm = .instr (.cmpSubi (Reg.ofBits a) imm) := by
  simp [decode, decodeCompare]

/-- Opcode byte `001111XX` with argument bits 7:6 equal to `01` is CLF (R70, decision D12). -/
theorem decode_clfWord (x : BitVec 2) (y : BitVec 6) :
    decode (0b001111#6 ++ x) (0b01#2 ++ y) = .instr .clf := by
  have hop : ∀ x : BitVec 2, (0b001111#6 ++ x : Byte) = opcodeByte 0b0011#4 0b11#2 x := by decide
  have harg : ∀ y : BitVec 6, clfBits (0b01#2 ++ y) = 0b01#2 := by decide
  rw [hop]
  simp [decode, decodeCompare, harg]

end Sys2Proof

namespace Sys2Proof.Machine
open Sys2Proof.Claims

section Readings
variable (a b r : Byte) (cin : Bool)

/-! ### Sums and differences with a carry-in, as numbers -/

theorem carryNat_eq_toNat : carryNat cin = cin.toNat := by cases cin <;> rfl

theorem unsigned_carryByte : unsigned (carryByte cin) = cin.toNat := by cases cin <;> rfl

theorem signed_carryByte : signed (carryByte cin) = cin.toNat := by cases cin <;> rfl

@[simp] theorem carryByte_false : carryByte false = 0#8 := rfl

theorem unsigned_add_carry :
    unsigned (a + b + carryByte cin) = (unsigned a + unsigned b + cin.toNat) % 256 := by
  rw [← unsigned_carryByte cin, unsigned, BitVec.toNat_add, BitVec.toNat_add, Nat.mod_add_mod]

theorem unsigned_sub_borrow :
    (unsigned (a - b - carryByte cin) : Int) =
      ((unsigned a : Int) - unsigned b - cin.toNat) % 256 := by
  rw [← unsigned_carryByte cin]
  simp only [unsigned, BitVec.toNat_sub]
  omega

theorem unsigned_lt : unsigned a < 256 := a.isLt

theorem signed_bounds : -128 ≤ signed a ∧ signed a ≤ 127 :=
  ⟨BitVec.le_toInt a, Int.le_of_lt_add_one (BitVec.toInt_lt (x := a))⟩

theorem signed_add_carry :
    signed (a + b + carryByte cin) = (signed a + signed b + cin.toNat).bmod 256 := by
  simp [signed, BitVec.toInt_add, signed_carryByte]

theorem signed_sub_borrow :
    signed (a - b - carryByte cin) = (signed a - signed b - cin.toNat).bmod 256 := by
  simp [signed, BitVec.toInt_sub, signed_carryByte]

/-! ### Z and S, C, V -/

/-- Bit 7 is the sign of the signed reading (00_scope.md R9). -/
theorem getLsbD_seven_eq : r.getLsbD 7 = decide (signed r < 0) := by
  rw [← BitVec.msb_eq_toInt, BitVec.msb_eq_getLsbD_last]

theorem signOf_eq_getLsbD : signOf r = r.getLsbD 7 := BitVec.msb_eq_getLsbD_last r

theorem shiftedOut_eq_getLsbD : shiftedOut a = a.getLsbD 7 := BitVec.msb_eq_getLsbD_last a

theorem zeroSignOf_flagsOf (c v : Bool) : ZeroSignOf (flagsOf r c v) r :=
  ⟨decide_eq_true_iff, signOf_eq_getLsbD r⟩

theorem outsideSigned_iff (x : Int) : outsideSigned x = true ↔ OutsideByte x := by
  simp [outsideSigned, OutsideByte]

theorem carryOfAdd_iff :
    carryOfAdd a b cin = true ↔ unsigned a + unsigned b + cin.toNat > 255 := by
  simp [carryOfAdd, carryNat_eq_toNat]

theorem borrowOfSub_iff :
    borrowOfSub a b cin = true ↔ unsigned a < unsigned b + cin.toNat := by
  simp [borrowOfSub, carryNat_eq_toNat]

theorem overflowOfAdd_iff :
    overflowOfAdd a b cin = true ↔ OutsideByte (signed a + signed b + cin.toNat) := by
  rw [overflowOfAdd, outsideSigned_iff, carryNat_eq_toNat]

theorem overflowOfSub_iff :
    overflowOfSub a b cin = true ↔ OutsideByte (signed a - signed b - cin.toNat) := by
  rw [overflowOfSub, outsideSigned_iff, carryNat_eq_toNat]

/-- The carry is the quotient that the sum modulo 256 leaves out. -/
theorem carryOfAdd_toNat :
    (carryOfAdd a b cin).toNat = (unsigned a + unsigned b + cin.toNat) / 256 := by
  have ha := unsigned_lt a
  have hb := unsigned_lt b
  have hcin := Bool.toNat_le cin
  have hiff := carryOfAdd_iff a b cin
  cases hc : carryOfAdd a b cin <;> simp [hc] at hiff ⊢ <;> omega

/-- The borrow is the quotient, negated, that the difference modulo 256 leaves out. -/
theorem borrowOfSub_toNat :
    ((borrowOfSub a b cin).toNat : Int) =
      -(((unsigned a : Int) - unsigned b - cin.toNat) / 256) := by
  have ha := unsigned_lt a
  have hb := unsigned_lt b
  have hcin := Bool.toNat_le cin
  have hiff := borrowOfSub_iff a b cin
  cases hc : borrowOfSub a b cin <;> simp [hc] at hiff ⊢ <;> omega

/-- V by the signs of the operands and of the sum (R120). -/
theorem overflowOfAdd_iff_signs :
    overflowOfAdd a b cin = true ↔
      a.getLsbD 7 = b.getLsbD 7 ∧ (a + b + carryByte cin).getLsbD 7 ≠ a.getLsbD 7 := by
  have ha := signed_bounds a
  have hb := signed_bounds b
  have hcin := Bool.toNat_le cin
  simp only [overflowOfAdd_iff, getLsbD_seven_eq, signed_add_carry, OutsideByte, ne_eq,
    decide_eq_decide, Int.bmod_def]
  omega

/-- V by the signs of the operands and of the difference (R120). -/
theorem overflowOfSub_iff_signs :
    overflowOfSub a b cin = true ↔
      a.getLsbD 7 ≠ b.getLsbD 7 ∧ (a - b - carryByte cin).getLsbD 7 ≠ a.getLsbD 7 := by
  have ha := signed_bounds a
  have hb := signed_bounds b
  have hcin := Bool.toNat_le cin
  simp only [overflowOfSub_iff, getLsbD_seven_eq, signed_sub_borrow, OutsideByte, ne_eq,
    decide_eq_decide, Int.bmod_def]
  omega

/-- V xor S after a subtraction is the signed order: S is the sign of the exact difference unless
that overflows. -/
theorem overflowOfSub_ne_sign_iff :
    (overflowOfSub a b cin != signOf (a - b - carryByte cin)) = true ↔
      signed a < signed b + cin.toNat := by
  have ha := signed_bounds a
  have hb := signed_bounds b
  have hcin := Bool.toNat_le cin
  rw [signOf_eq_getLsbD, getLsbD_seven_eq, signed_sub_borrow, bne_iff_ne, ne_eq, Bool.eq_iff_iff,
    overflowOfSub_iff, decide_eq_true_iff, OutsideByte, Int.bmod_def]
  omega

end Readings

/-- Settles O33: both forms are arithmetic on the signed readings, of which bit 7 is the sign. -/
theorem overflowByOperandSigns : Obligations.OverflowByOperandSigns :=
  ⟨overflowOfAdd_iff_signs, overflowOfSub_iff_signs⟩

/-! ### What the ALU answers -/

section AluOut
variable (f : Funct) (a b : Byte) (cin u : Bool)

theorem zeroSignOf_alu : ZeroSignOf (alu f a b cin u).flags (alu f a b cin u).result := by
  cases f <;> exact zeroSignOf_flagsOf _ _ _

theorem alu_addc :
    unsigned (alu .addc a b cin u).result = (unsigned a + unsigned b + cin.toNat) % 256 ∧
    ((alu .addc a b cin u).flags.c = true ↔ unsigned a + unsigned b + cin.toNat > 255) ∧
    ((alu .addc a b cin u).flags.v = true ↔ OutsideByte (signed a + signed b + cin.toNat)) :=
  ⟨unsigned_add_carry a b cin, carryOfAdd_iff a b cin, overflowOfAdd_iff a b cin⟩

theorem alu_subb :
    (unsigned (alu .subb a b cin u).result : Int) =
      ((unsigned a : Int) - unsigned b - cin.toNat) % 256 ∧
    ((alu .subb a b cin u).flags.c = true ↔ unsigned a < unsigned b + cin.toNat) ∧
    ((alu .subb a b cin u).flags.v = true ↔ OutsideByte (signed a - signed b - cin.toNat)) :=
  ⟨unsigned_sub_borrow a b cin, borrowOfSub_iff a b cin, overflowOfSub_iff a b cin⟩

/-- V xor S after a subtraction is the signed order. -/
theorem alu_subb_order :
    ((alu .subb a b cin u).flags.v != (alu .subb a b cin u).flags.s) = true ↔
      signed a < signed b + cin.toNat :=
  overflowOfSub_ne_sign_iff a b cin

/-- ADD is ADDC without a carry-in. -/
theorem alu_add_eq_addc : alu .add a b cin u = alu .addc a b false u := by
  simp [alu]

/-- SUB is SUBB without a borrow. -/
theorem alu_sub_eq_subb : alu .sub a b cin u = alu .subb a b false u := by
  simp [alu]

theorem alu_add :
    unsigned (alu .add a b cin u).result = (unsigned a + unsigned b) % 256 ∧
    ((alu .add a b cin u).flags.c = true ↔ unsigned a + unsigned b > 255) ∧
    ((alu .add a b cin u).flags.v = true ↔ OutsideByte (signed a + signed b)) := by
  simpa [alu_add_eq_addc] using alu_addc a b false u

theorem alu_sub :
    (unsigned (alu .sub a b cin u).result : Int) = ((unsigned a : Int) - unsigned b) % 256 ∧
    ((alu .sub a b cin u).flags.c = true ↔ unsigned a < unsigned b) ∧
    ((alu .sub a b cin u).flags.v = true ↔ OutsideByte (signed a - signed b)) := by
  simpa [alu_sub_eq_subb] using alu_subb a b false u

/-- C after ADD as the number carried into the next byte. -/
theorem alu_add_carry :
    (alu .add a b cin u).flags.c.toNat = (unsigned a + unsigned b) / 256 :=
  carryOfAdd_toNat a b false

/-- C after SUB as the number borrowed from the next byte. -/
theorem alu_sub_borrow :
    ((alu .sub a b cin u).flags.c.toNat : Int) = -(((unsigned a : Int) - unsigned b) / 256) := by
  simpa [alu] using borrowOfSub_toNat a b false

theorem alu_sll :
    unsigned (alu .sll a b cin u).result = 2 * unsigned a % 256 ∧
    (alu .sll a b cin u).flags.c = a.getLsbD 7 := by
  refine ⟨?_, shiftedOut_eq_getLsbD a⟩
  simp [alu, BitVec.toNat_shiftLeft, Nat.shiftLeft_eq, Nat.mul_comm]

/-- The rotate stays within the byte: bit 7 comes in at bit 0 (decision D10, log entry 13). -/
theorem alu_rol :
    unsigned (alu .rol a b cin u).result = 2 * unsigned a % 256 + unsigned a / 128 ∧
    (alu .rol a b cin u).flags.c = a.getLsbD 7 := by
  refine ⟨?_, shiftedOut_eq_getLsbD a⟩
  have ha := unsigned_lt a
  have hup : 2 * unsigned a % 256 = 2 ^ 1 * (unsigned a % 128) := by omega
  have hin : unsigned a / 128 < 2 ^ 1 := by omega
  rw [hup, Nat.two_pow_add_eq_or_of_lt hin, ← hup, alu, aluOut_result, unsigned,
    BitVec.toNat_rotateLeft, Nat.shiftLeft_eq, Nat.shiftRight_eq_div_pow, Nat.mul_comm]

theorem alu_srl :
    unsigned (alu .srl a b cin u).result = unsigned a / 2 ∧
    (alu .srl a b cin u).flags.c = false ∧ (alu .srl a b cin u).flags.s = false := by
  refine ⟨?_, rfl, ?_⟩
  · simp [alu, BitVec.toNat_ushiftRight, Nat.shiftRight_eq_div_pow]
  · simp [alu, signOf, BitVec.msb_ushiftRight]

theorem alu_sra :
    signed (alu .sra a b cin u).result = (signed a).fdiv 2 ∧
    (alu .sra a b cin u).result.getLsbD 7 = a.getLsbD 7 ∧
    (∀ k, k < 7 → (alu .sra a b cin u).result.getLsbD k = a.getLsbD (k + 1)) ∧
    (alu .sra a b cin u).flags.c = false ∧ (alu .sra a b cin u).flags.s = a.getLsbD 7 := by
  have hmsb : (a.sshiftRight 1).getLsbD 7 = a.getLsbD 7 := by
    rw [BitVec.getLsbD_sshiftRight, BitVec.msb_eq_getLsbD_last]
    rfl
  refine ⟨?_, hmsb, fun k hk => ?_, rfl, (signOf_eq_getLsbD _).trans hmsb⟩
  · simp [alu, BitVec.toInt_sshiftRight, Int.shiftRight_eq_div_pow, Int.fdiv_eq_ediv_of_nonneg]
  · have hcell : ¬ 8 ≤ k := by omega
    have hnext : 1 + k < 8 := by omega
    rw [alu, aluOut_result, BitVec.getLsbD_sshiftRight, decide_eq_false hcell, if_pos hnext,
      Bool.not_false, Bool.true_and, Nat.add_comm]

/-- MOVE and the logic functions clear C and V (decision D8, log entry 11). -/
def clearsCarry : Funct → Bool
  | .move | .and | .or | .not | .xor | .nand | .nor | .xnor => true
  | _ => false

theorem alu_clearsCarry (h : clearsCarry f = true) :
    (alu f a b cin u).flags.c = false ∧ (alu f a b cin u).flags.v = false := by
  cases f with
  | move | and | or | not | xor | nand | nor | xnor => exact ⟨rfl, rfl⟩
  | _ => cases h

end AluOut

/-! ### The effect of an ALU instruction on the state -/

section AluEffect
variable (s : State) (f : Funct) (rd : Reg) (a b : Byte)

/-- An ALU operation writes the ALU's result and flags, and nothing else but PC (R81). -/
theorem aluToReg_effect :
    ∃ t, aluToReg s f rd a b = .next t ∧ t.reg rd = (aluIn s f a b).result ∧
      t.flags = (aluIn s f a b).flags ∧ OnlyRegAndFlags rd s t := by
  refine ⟨_, rfl, by simp, by simp, fun q hq => ?_, ?_⟩
  · simp [State.setReg_reg_other _ _ _ _ hq]
  · simp [SameMemory, SameData, SameStack, SameProgram, SameDevices]

/-- A compare operation writes the ALU's flags, and nothing else but PC (R100). -/
theorem aluCompare_effect :
    ∃ t, aluCompare s f a b = .next t ∧ t.flags = (aluIn s f a b).flags ∧ OnlyFlags s t := by
  refine ⟨_, rfl, by simp, fun q => ?_, ?_⟩
  · simp
  · simp [SameMemory, SameData, SameStack, SameProgram, SameDevices]

theorem clf_effect :
    ∃ t, exec .clf s = .next t ∧ t.flags = flagsClear ∧ OnlyFlags s t := by
  refine ⟨_, rfl, rfl, fun q => ?_, ?_⟩
  · simp
  · simp [SameMemory, SameData, SameStack, SameProgram, SameDevices]

end AluEffect

/-! ### Sums and differences -/

/-- ADD of two operand values, of registers or of an immediate (R83, R98). -/
theorem aluToReg_add (s : State) (rd : Reg) (a b : Byte) :
    ∃ t, aluToReg s .add rd a b = .next t ∧
      unsigned (t.reg rd) = (unsigned a + unsigned b) % 256 ∧
      (t.flags.c = true ↔ unsigned a + unsigned b > 255) ∧
      (t.flags.v = true ↔ OutsideByte (signed a + signed b)) ∧
      ZeroSignOf t.flags (t.reg rd) ∧ OnlyRegAndFlags rd s t := by
  obtain ⟨t, ht, hreg, hflags, hframe⟩ := aluToReg_effect s .add rd a b
  obtain ⟨hresult, hc, hv⟩ := alu_add a b s.flags.c (Config.undefinedV s.draws)
  refine ⟨t, ht, ?_⟩
  rw [hreg, hflags]
  exact ⟨hresult, hc, hv, zeroSignOf_alu .., hframe⟩

/-- Settles O20: the effect is `aluToReg_add` at the two registers. -/
theorem addInstruction : Obligations.AddInstruction := by
  refine ⟨fun d a x b => ?_, fun rd ra rb s => aluToReg_add s rd (s.reg ra) (s.reg rb)⟩
  exact decode_aluWord (f := .add) d a (by rw [functBits_append_append]; rfl) (by simp)

/-- Settles O21: the effect is that of an ALU operation whose answer is `alu_sub`. -/
theorem subInstruction : Obligations.SubInstruction := by
  refine ⟨fun d a x b => ?_, fun rd ra rb s => ?_⟩
  · exact decode_aluWord (f := .sub) d a (by rw [functBits_append_append]; rfl) (by simp)
  · obtain ⟨t, ht, hreg, hflags, hframe⟩ := aluToReg_effect s .sub rd (s.reg ra) (s.reg rb)
    obtain ⟨hresult, hc, hv⟩ :=
      alu_sub (s.reg ra) (s.reg rb) s.flags.c (Config.undefinedV s.draws)
    refine ⟨t, ht, ?_⟩
    rw [hreg, hflags]
    exact ⟨hresult, hc, hv, zeroSignOf_alu .., hframe⟩

/-- Settles O22: the carry-in of `alu_addc` and `alu_subb` is the state's C. -/
theorem addcAndSubbInstructions : Obligations.AddcAndSubbInstructions := by
  refine ⟨fun rd ra rb s => ?_, fun rd ra rb s => ?_⟩
  · obtain ⟨t, ht, hreg, hflags, hframe⟩ := aluToReg_effect s .addc rd (s.reg ra) (s.reg rb)
    obtain ⟨hresult, hc, hv⟩ :=
      alu_addc (s.reg ra) (s.reg rb) s.flags.c (Config.undefinedV s.draws)
    refine ⟨t, ht, ?_⟩
    rw [hreg, hflags]
    exact ⟨hresult, hc, hv, zeroSignOf_alu .., hframe⟩
  · obtain ⟨t, ht, hreg, hflags, hframe⟩ := aluToReg_effect s .subb rd (s.reg ra) (s.reg rb)
    obtain ⟨hresult, hc, hv⟩ :=
      alu_subb (s.reg ra) (s.reg rb) s.flags.c (Config.undefinedV s.draws)
    refine ⟨t, ht, ?_⟩
    rw [hreg, hflags]
    exact ⟨hresult, hc, hv, zeroSignOf_alu .., hframe⟩

/-- Settles O28: the last two clauses are that of ADD with 0xFF and with 0x00 in place of Rb. -/
theorem addiInstruction : Obligations.AddiInstruction := by
  refine ⟨decode_addiWord, fun rd ra imm s => aluToReg_add s rd (s.reg ra) imm,
    fun rd ra s => ?_, fun rd ra s => ?_⟩
  · obtain ⟨t, ht, hresult, hc, -⟩ := aluToReg_add s rd (s.reg ra) 0xFF
    refine ⟨t, ht, ?_, ?_⟩
    · apply BitVec.eq_of_toNat_eq
      rw [← unsigned, hresult, BitVec.toNat_sub, Nat.add_comm]
      rfl
    · rw [← Bool.not_eq_true, hc, ← BitVec.toNat_inj]
      change ¬ (s.reg ra).toNat + 255 > 255 ↔ (s.reg ra).toNat = 0
      omega
  · obtain ⟨t, ht, hreg, hflags, -⟩ := aluToReg_effect s .add rd (s.reg ra) 0x00
    obtain ⟨-, hc, hv⟩ := alu_add (s.reg ra) 0x00 s.flags.c (Config.undefinedV s.draws)
    have hunsigned := unsigned_lt (s.reg ra)
    have hsigned := signed_bounds (s.reg ra)
    refine ⟨t, ht, ?_, ?_, ?_⟩
    · rw [hreg]
      exact BitVec.add_zero _
    · rw [hflags, ← Bool.not_eq_true]
      exact fun h => absurd (hc.mp h) (by change ¬ unsigned (s.reg ra) > 255; omega)
    · rw [hflags, ← Bool.not_eq_true]
      exact fun h => absurd (hv.mp h) (by simp [OutsideByte]; omega)

/-- Settles O29: a compare operation with the flags of `alu_sub`. -/
theorem cmpSubiInstruction : Obligations.CmpSubiInstruction := by
  refine ⟨decode_cmpSubiWord, fun ra imm s => ?_⟩
  obtain ⟨t, ht, hflags, hframe⟩ := aluCompare_effect s .sub (s.reg ra) imm
  obtain ⟨-, hc, hv⟩ := alu_sub (s.reg ra) imm s.flags.c (Config.undefinedV s.draws)
  refine ⟨t, ht, ?_⟩
  rw [hflags]
  exact ⟨hc, hv, zeroSignOf_alu .., hframe, fun _ => rfl⟩

/-! ### Copies and logic functions -/

/-- Settles O23: the ALU answers its first operand, with C and V clear. -/
theorem moveInstruction : Obligations.MoveInstruction := by
  intro rd ra s
  obtain ⟨t, ht, hreg, hflags, hframe⟩ := aluToReg_effect s .move rd (s.reg ra) (s.reg ra)
  refine ⟨t, ht, hreg, ?_⟩
  rw [hflags]
  exact ⟨zeroSignOf_alu .., rfl, rfl, hframe⟩

/-- A logic function given bit by bit, of registers or of an immediate (R87 to R93, R99). -/
theorem aluToReg_logic {f : Funct} {g : Bool → Bool → Bool} (hclear : clearsCarry f = true)
    (hbits : ∀ (a b : Byte) cin u k, k < 8 →
      (alu f a b cin u).result.getLsbD k = g (a.getLsbD k) (b.getLsbD k))
    (s : State) (rd : Reg) (a b : Byte) :
    ∃ t, aluToReg s f rd a b = .next t ∧
      (∀ k, k < 8 → (t.reg rd).getLsbD k = g (a.getLsbD k) (b.getLsbD k)) ∧
      ZeroSignOf t.flags (t.reg rd) ∧ t.flags.c = false ∧ t.flags.v = false ∧
      OnlyRegAndFlags rd s t := by
  obtain ⟨t, ht, hreg, hflags, hframe⟩ := aluToReg_effect s f rd a b
  obtain ⟨hc, hv⟩ := alu_clearsCarry f a b s.flags.c (Config.undefinedV s.draws) hclear
  refine ⟨t, ht, ?_⟩
  rw [hreg, hflags]
  exact ⟨hbits a b _ _, zeroSignOf_alu .., hc, hv, hframe⟩

theorem logicEffect_aluInstr {f : Funct} {g : Bool → Bool → Bool} (hclear : clearsCarry f = true)
    (hbits : ∀ (a b : Byte) cin u k, k < 8 →
      (alu f a b cin u).result.getLsbD k = g (a.getLsbD k) (b.getLsbD k)) :
    LogicEffect (aluInstr f) g := by
  intro rd ra rb s
  rw [exec_aluInstr]
  exact aluToReg_logic hclear hbits s rd (s.reg ra) (s.reg rb)

theorem alu_and_getLsbD (a b : Byte) (cin u : Bool) (k : Nat) :
    (alu .and a b cin u).result.getLsbD k = (a.getLsbD k && b.getLsbD k) :=
  BitVec.getLsbD_and

/-- Settles O24: each function clears C and V, and answers its Boolean function bit by bit. -/
theorem logicInstructions : Obligations.LogicInstructions := by
  refine ⟨logicEffect_aluInstr (f := .and) rfl fun a b c u k _ => alu_and_getLsbD a b c u k,
    logicEffect_aluInstr (f := .or) rfl fun a b _ _ k _ => BitVec.getLsbD_or,
    logicEffect_aluInstr (f := .not) rfl fun a b _ _ k hk => ?_,
    logicEffect_aluInstr (f := .xor) rfl fun a b _ _ k _ => ?_,
    logicEffect_aluInstr (f := .nand) rfl fun a b _ _ k hk => ?_,
    logicEffect_aluInstr (f := .nor) rfl fun a b _ _ k hk => ?_,
    logicEffect_aluInstr (f := .xnor) rfl fun a b _ _ k hk => ?_⟩
  · simp [alu, hk]
  · simp [alu, Bool.bne_eq_xor]
  · simp [alu, hk]
  · simp [alu, hk]
  · rw [alu, aluOut_result, BitVec.getLsbD_not, BitVec.getLsbD_xor, decide_eq_true hk]
    exact Bool.not_not _

/-- Settles O30: CMP-ANDI's Z says of the AND that it is zero, so that its bits are. -/
theorem andImmediateInstructions : Obligations.AndImmediateInstructions := by
  refine ⟨fun rd ra imm s =>
    aluToReg_logic (f := .and) rfl (fun a b c u k _ => alu_and_getLsbD a b c u k) s rd _ imm,
    fun ra imm s => ?_⟩
  obtain ⟨t, ht, hflags, hframe⟩ := aluCompare_effect s .and (s.reg ra) imm
  obtain ⟨hz, hs⟩ := zeroSignOf_flagsOf (s.reg ra &&& imm) false false
  refine ⟨t, ht, ?_⟩
  rw [hflags]
  refine ⟨hz.trans ?_, hs.trans BitVec.getLsbD_and, rfl, rfl, hframe⟩
  rw [BitVec.eq_of_getLsbD_eq_iff]
  simp

/-! ### Shifts and rotates -/

/-- Settles O25: by `alu_sll` and `alu_rol`, whose C is bit 7 of the operand. -/
theorem leftShiftAndRotateInstructions : Obligations.LeftShiftAndRotateInstructions := by
  refine ⟨fun rd ra s => ?_, fun rd ra s => ?_⟩
  · obtain ⟨t, ht, hreg, hflags, hframe⟩ := aluToReg_effect s .sll rd (s.reg ra) (s.reg ra)
    obtain ⟨hresult, hc⟩ := alu_sll (s.reg ra) (s.reg ra) s.flags.c (Config.undefinedV s.draws)
    refine ⟨t, ht, ?_⟩
    rw [hreg, hflags]
    exact ⟨hresult, hc, zeroSignOf_alu .., hframe⟩
  · obtain ⟨t, ht, hreg, hflags, hframe⟩ := aluToReg_effect s .rol rd (s.reg ra) (s.reg ra)
    obtain ⟨hresult, hc⟩ := alu_rol (s.reg ra) (s.reg ra) s.flags.c (Config.undefinedV s.draws)
    refine ⟨t, ht, ?_⟩
    rw [hreg, hflags]
    exact ⟨hresult, hc, zeroSignOf_alu .., hframe⟩

/-- Settles O26: by `alu_srl` and `alu_sra`; the decoder looks at Funct alone in the argument. -/
theorem rightShiftInstructions : Obligations.RightShiftInstructions := by
  refine ⟨fun d a x => ?_, fun d a x => ?_, fun rd ra s => ?_, fun rd ra s => ?_⟩
  · exact decode_aluWord (f := .srl) d a (by rw [functBits_append]; rfl) rfl
  · exact decode_aluWord (f := .sra) d a (by rw [functBits_append]; rfl) rfl
  · obtain ⟨t, ht, hreg, hflags, hframe⟩ := aluToReg_effect s .srl rd (s.reg ra) (s.reg ra)
    obtain ⟨hresult, hc, hs⟩ :=
      alu_srl (s.reg ra) (s.reg ra) s.flags.c (Config.undefinedV s.draws)
    refine ⟨t, ht, ?_⟩
    rw [hreg, hflags]
    exact ⟨hresult, hc, hs, zeroSignOf_alu .., hframe⟩
  · obtain ⟨t, ht, hreg, hflags, hframe⟩ := aluToReg_effect s .sra rd (s.reg ra) (s.reg ra)
    obtain ⟨hresult, htop, hbits, hc, hs⟩ :=
      alu_sra (s.reg ra) (s.reg ra) s.flags.c (Config.undefinedV s.draws)
    refine ⟨t, ht, ?_⟩
    rw [hreg, hflags]
    exact ⟨hresult, htop, hbits, hc, hs, zeroSignOf_alu .., hframe⟩

/-! ### Runs of ALU operations -/

theorem execAll_cons_of_next {i : Instr} {s t : State} (is : List Instr)
    (h : exec i s = .next t) : execAll (i :: is) s = execAll is t := by
  simp [execAll, h]

/-- `n` ROLs of a register rotate it `n` places and keep the other registers. -/
theorem execAll_replicate_rol (r : Reg) (n : Nat) (s : State) :
    ∃ t, execAll (List.replicate n (.rol r r)) s = .next t ∧
      t.reg r = (fun v : Byte => v.rotateLeft 1)^[n] (s.reg r) ∧ SameRegsBut r s t := by
  induction n generalizing s with
  | zero => exact ⟨s, rfl, rfl, fun _ _ => rfl⟩
  | succ n ih =>
    obtain ⟨t, ht, hreg, -, hkept, -⟩ := aluToReg_effect s .rol r (s.reg r) (s.reg r)
    obtain ⟨u, hu, hureg, hukept⟩ := ih t
    refine ⟨u, (execAll_cons_of_next (i := .rol r r) _ ht).trans hu, ?_, fun q hq => ?_⟩
    · rw [hureg, hreg]
      rfl
    · exact (hukept q hq).trans (hkept q hq)

/-- Settles O27: eight places are the whole byte. -/
theorem eightRotatesRestoreTheRegister : Obligations.EightRotatesRestoreTheRegister := by
  intro r s
  have hrotate : ∀ v : Byte, (fun v : Byte => v.rotateLeft 1)^[8] v = v := by decide
  obtain ⟨t, ht, hreg, hkept⟩ := execAll_replicate_rol r 8 s
  refine ⟨t, ht, fun q => ?_⟩
  by_cases hq : q = r
  · rw [hq, hreg, hrotate]
  · exact hkept q hq

section TwoBytes
variable {lo hi lo' hi' : Reg} (s : State)

/-- An ALU operation on the low bytes, then one on the high bytes: the second takes the first one's
C as its carry-in. -/
theorem execAll_low_high (f g : Funct) (hhi : lo ≠ hi) (hhi' : lo ≠ hi') :
    ∃ t u, execAll [aluInstr f lo lo lo', aluInstr g hi hi hi'] s = .next t ∧
      t.reg lo = (aluIn s f (s.reg lo) (s.reg lo')).result ∧
      t.reg hi = (alu g (s.reg hi) (s.reg hi')
        (aluIn s f (s.reg lo) (s.reg lo')).flags.c u).result ∧
      t.flags = (alu g (s.reg hi) (s.reg hi')
        (aluIn s f (s.reg lo) (s.reg lo')).flags.c u).flags := by
  obtain ⟨m, hm, hmreg, hmflags, hmkept, -⟩ := aluToReg_effect s f lo (s.reg lo) (s.reg lo')
  obtain ⟨t, ht, htreg, htflags, htkept, -⟩ := aluToReg_effect m g hi (m.reg hi) (m.reg hi')
  rw [hmkept hi hhi.symm, hmkept hi' hhi'.symm, aluIn, hmflags] at htreg htflags
  rw [← exec_aluInstr] at hm ht
  refine ⟨t, _, ?_, (htkept lo hhi).trans hmreg, htreg, htflags⟩
  rw [execAll_cons_of_next _ hm, execAll_cons_of_next _ ht, execAll]

theorem add_addc_two_bytes (hhi : lo ≠ hi) (hhi' : lo ≠ hi') :
    ∃ t, execAll [.add lo lo lo', .addc hi hi hi'] s = .next t ∧
      pairNat (t.reg hi) (t.reg lo) =
        (pairNat (s.reg hi) (s.reg lo) + pairNat (s.reg hi') (s.reg lo')) % 65536 ∧
      (t.flags.c = true ↔
        pairNat (s.reg hi) (s.reg lo) + pairNat (s.reg hi') (s.reg lo') > 65535) ∧
      (t.flags.v = true ↔
        pairInt (s.reg hi) (s.reg lo) + pairInt (s.reg hi') (s.reg lo') < -32768 ∨
        pairInt (s.reg hi) (s.reg lo) + pairInt (s.reg hi') (s.reg lo') > 32767) := by
  obtain ⟨t, u, ht, hlo, hthi, hflags⟩ := execAll_low_high (lo' := lo') s .add .addc hhi hhi'
  obtain ⟨hlow, -⟩ := alu_add (s.reg lo) (s.reg lo') s.flags.c (Config.undefinedV s.draws)
  have hcarry := alu_add_carry (s.reg lo) (s.reg lo') s.flags.c (Config.undefinedV s.draws)
  obtain ⟨hhigh, hc, hv⟩ := alu_addc (s.reg hi) (s.reg hi')
    (aluIn s .add (s.reg lo) (s.reg lo')).flags.c u
  rw [← aluIn] at hlow hcarry
  rw [← hlo] at hlow
  rw [← hthi, hcarry] at hhigh
  rw [← hflags, hcarry] at hc hv
  unfold OutsideByte at hv
  unfold pairNat pairInt
  exact ⟨t, ht, by omega, hc.trans (by omega), hv.trans (by omega)⟩

theorem sub_subb_two_bytes (hhi : lo ≠ hi) (hhi' : lo ≠ hi') :
    ∃ t, execAll [.sub lo lo lo', .subb hi hi hi'] s = .next t ∧
      (pairNat (t.reg hi) (t.reg lo) : Int) =
        ((pairNat (s.reg hi) (s.reg lo) : Int) - pairNat (s.reg hi') (s.reg lo')) % 65536 ∧
      (t.flags.c = true ↔
        pairNat (s.reg hi) (s.reg lo) < pairNat (s.reg hi') (s.reg lo')) ∧
      ((t.flags.v != t.flags.s) = true ↔
        pairInt (s.reg hi) (s.reg lo) < pairInt (s.reg hi') (s.reg lo')) := by
  obtain ⟨t, u, ht, hlo, hthi, hflags⟩ := execAll_low_high (lo' := lo') s .sub .subb hhi hhi'
  obtain ⟨hlow, -⟩ := alu_sub (s.reg lo) (s.reg lo') s.flags.c (Config.undefinedV s.draws)
  have hborrow := alu_sub_borrow (s.reg lo) (s.reg lo') s.flags.c (Config.undefinedV s.draws)
  obtain ⟨hhigh, hc, -⟩ := alu_subb (s.reg hi) (s.reg hi')
    (aluIn s .sub (s.reg lo) (s.reg lo')).flags.c u
  have horder := alu_subb_order (s.reg hi) (s.reg hi')
    (aluIn s .sub (s.reg lo) (s.reg lo')).flags.c u
  have hlobound := unsigned_lt (s.reg lo)
  have hlobound' := unsigned_lt (s.reg lo')
  rw [← aluIn] at hlow hborrow
  rw [← hlo] at hlow
  rw [← hthi] at hhigh
  rw [← hflags] at hc horder
  unfold pairNat pairInt
  exact ⟨t, ht, by omega, hc.trans (by omega), horder.trans (by omega)⟩

/-- Settles O34: the high bytes take the carry or borrow of the low bytes in. -/
theorem twoByteArithmetic : Obligations.TwoByteArithmetic :=
  fun _ _ _ _ s hhi hhi' => ⟨add_addc_two_bytes s hhi hhi', sub_subb_two_bytes s hhi hhi'⟩

end TwoBytes

/-! ### Compare operations and CLF -/

/-- Settles O31: the two operations see the same carry-in, so they differ in a drawn V alone. -/
theorem compareIsTheAluOperationWithoutTheWrite :
    Obligations.CompareIsTheAluOperationWithoutTheWrite := by
  refine ⟨fun f a x b => ?_, fun f rd ra rb s n => ?_, fun _ _ _ => rfl⟩
  · exact decode_cmpWord a (by rw [functBits_append_append]) (by simp)
  · obtain ⟨t, ht, htflags, hframe⟩ := aluCompare_effect s f (s.reg ra) (s.reg rb)
    obtain ⟨u, hu, -, huflags, -⟩ :=
      aluToReg_effect (s.reflag s.flags n) f rd (s.reg ra) (s.reg rb)
    obtain ⟨-, hz, hc, hs, hv⟩ := alu_same_but_drawn (f := f) (s.reg ra) (s.reg rb)
      (Config.undefinedV s.draws) (Config.undefinedV n) fun _ => Eq.refl s.flags.c
    refine ⟨t, u, (exec_cmpInstr ..).trans ht, (exec_aluInstr ..).trans hu, ?_, hframe⟩
    rw [htflags, huflags, aluIn_reflag]
    exact ⟨hz, hc, hs, fun hdef => hv (by simpa using hdef)⟩

/-- Settles O32: by `decode_clfWord` and `clf_effect`. -/
theorem clfInstruction : Obligations.ClfInstruction :=
  ⟨decode_clfWord, clf_effect⟩

end Sys2Proof.Machine
end

/-! ## The data movement family (41_data_movement.md): what loads, stores and stack instructions do -/

section
namespace Sys2Proof

/-! ### The words of opcodes 0100, 0101, 0110 and 0111 -/

theorem decode_liWord (d x : BitVec 2) (imm : Byte) :
    decode (opcodeByte 0b0100#4 d x) imm = .instr (.li (Reg.ofBits d) imm) := by
  simp [decode]

theorem decode_stAddrWord (a : BitVec 2) (addr : Byte) :
    decode (opcodeByte 0b0101#4 0b00#2 a) addr = .instr (.stAddr (Reg.ofBits a) addr) := by
  simp [decode, decodeStore]

theorem decode_ldAddrWord (d x : BitVec 2) (addr : Byte) :
    decode (opcodeByte 0b0110#4 d x) addr = .instr (.ldAddr (Reg.ofBits d) addr) := by
  simp [decode]

theorem decode_ldRegWord (d a : BitVec 2) (arg : Byte) :
    decode (opcodeByte 0b0111#4 d a) arg =
      .instr (.ldReg (Reg.ofBits d) (Reg.ofBits a)) := by
  simp [decode]

end Sys2Proof

namespace Sys2Proof.Machine
open Sys2Proof.Claims

/-! ### The frame of an instruction, by the lists it does not stand in -/

section Frames
variable {i : Instr} {s t : State} {rd : Reg}

theorem WrittenAsListed.sameRegs (h : WrittenAsListed i s t) (hdest : destReg i = none) :
    SameRegs s t :=
  fun q => h.reg q (by simp [hdest])

theorem WrittenAsListed.sameRegsBut (h : WrittenAsListed i s t) (hdest : destReg i = some rd) :
    SameRegsBut rd s t :=
  fun q hq => h.reg q (by simpa [hdest] using hq.symm)

theorem WrittenAsListed.sameDevices (h : WrittenAsListed i s t) (hout : writesOut i = false)
    (hlcd : sendsLcd i = false) (hhlt : i ≠ .hlt) : SameDevices s t :=
  ⟨h.out hout, h.lcd hlcd, h.halted hhlt⟩

theorem WrittenAsListed.sameMemory (h : WrittenAsListed i s t) (hdata : writesData i = false)
    (hstack : writesStack i = false) : SameMemory s t :=
  ⟨h.data hdata, h.stack hstack, h.program⟩

end Frames

/-! ### Loads -/

/-- Writing one register and going on changes nothing else (R130, R134, R135). -/
theorem setReg_advance_effect (s : State) (rd : Reg) (v : Byte) :
    (s.setReg rd v).advance.reg rd = v ∧ (s.setReg rd v).advance.flags = s.flags ∧
      OnlyRegAndFlags rd s (s.setReg rd v).advance := by
  refine ⟨by simp, by simp, fun q hq => ?_, ?_⟩
  · simp [State.setReg_reg_other _ _ _ _ hq]
  · simp [SameMemory, SameData, SameStack, SameProgram, SameDevices]

/-- Settles O35: LI writes the immediate in one register. -/
theorem liInstruction : Obligations.LiInstruction :=
  ⟨decode_liWord, fun rd imm s => ⟨_, rfl, setReg_advance_effect s rd imm⟩⟩

/-- Settles O38: both loads write a data byte of the old state in one register. -/
theorem loadInstructions : Obligations.LoadInstructions :=
  ⟨decode_ldAddrWord, decode_ldRegWord,
    fun rd addr s => ⟨_, rfl, setReg_advance_effect s rd (s.dataByte addr)⟩,
    fun rd ra s => ⟨_, rfl, setReg_advance_effect s rd (s.dataByte (s.reg ra))⟩⟩

/-! ### Stores -/

/-- ST-Addr and ST-Reg, each at its own address: the byte is stored and all else but PC is kept
(R131, R132). -/
theorem exec_store_effect {i : Instr} {s : State} {a v : Byte}
    (haddr : dataStoreAddr i s = some a) (hbyte : dataStoreByte i s = some v) :
    ∃ t, exec i s = .next t ∧ t.dataByte a = v ∧ SameMemoryButData a s t ∧ SameRegs s t ∧
      t.flags = s.flags ∧ t.sp = s.sp ∧ SameDevices s t ∧ t.pc = s.nextPc := by
  obtain ⟨F, hF, hexec⟩ := exec_hasEffect i
  have ht := hexec s
  have hframe := hF.writtenAsListed s
  have hother (q : Byte) (hq : q ≠ a) : (F s).dataByte q = s.dataByte q :=
    exec_keeps_dataByte (by simpa [haddr] using hq.symm) ht
  refine ⟨F s, ht, exec_store_dataByte haddr hbyte ht, ?_⟩
  cases i with
  | stAddr | stReg =>
    exact ⟨⟨hother, hframe.stack rfl, hframe.program⟩, hframe.sameRegs rfl, hframe.flags rfl,
      hframe.sp rfl, hframe.sameDevices rfl rfl nofun, hframe.pc rfl nofun⟩
  | _ => cases haddr

/-- Settles O36: a store at the immediate address. -/
theorem stAddrInstruction : Obligations.StAddrInstruction := by
  refine ⟨decode_stAddrWord, fun ra addr s => ?_⟩
  obtain ⟨t, ht, hbyte, hframe⟩ := exec_store_effect (i := .stAddr ra addr) (s := s) rfl rfl
  exact ⟨t, ht, hbyte, rfl, hframe⟩

/-- Settles O37: a store at the address that Rb holds. -/
theorem stRegInstruction : Obligations.StRegInstruction := by
  intro ra rb s
  obtain ⟨t, ht, hbyte, hframe⟩ := exec_store_effect (i := .stReg ra rb) (s := s) rfl rfl
  exact ⟨t, ht, hbyte, rfl, hframe⟩

/-! ### The stack instructions -/

/-- Settles O39: `State.push_stackByte` at SP and at the other cells. -/
theorem pushInstruction : Obligations.PushInstruction := by
  intro ra s
  have hframe := exec_writtenAsListed (i := .push ra) (s := s) rfl
  have hcell (q : Byte) := s.push_stackByte (s.reg ra) q
  exact ⟨_, rfl, (hcell s.sp).trans (if_pos rfl), rfl, rfl,
    ⟨fun q hq => (hcell q).trans (if_neg hq), hframe.data rfl, hframe.program⟩,
    hframe.sameRegs rfl, hframe.flags rfl, hframe.sameDevices rfl rfl nofun,
    hframe.pc rfl nofun⟩

/-- Settles O40: POP writes the old top in one register and moves SP. -/
theorem popInstruction : Obligations.PopInstruction := by
  intro rd s
  have hframe := exec_writtenAsListed (i := .pop rd) (s := s) rfl
  exact ⟨_, rfl, State.setReg_reg_same _ rd s.top, State.setReg_sp _ rd s.top,
    hframe.sameRegsBut rfl, hframe.flags rfl, hframe.sameMemory rfl rfl,
    hframe.sameDevices rfl rfl nofun, hframe.pc rfl nofun⟩

/-- Settles O41: the top and Ra are both read before either is written, so Rd may be Ra. -/
theorem swapInstruction : Obligations.SwapInstruction := by
  intro rd ra s
  have hframe := exec_writtenAsListed (i := .swap rd ra) (s := s) rfl
  have hcell (q : Byte) : ((s.setTop (s.reg ra)).setReg rd s.top).advance.stackByte q =
      if q = s.topAddr then s.reg ra else s.stackByte q := by
    rw [State.advance_stackByte, State.setReg_stackByte, State.setTop_stackByte]
  exact ⟨_, rfl, State.setReg_reg_same _ rd s.top, rfl, (hcell s.topAddr).trans (if_pos rfl),
    hframe.sp rfl,
    ⟨fun q hq => (hcell q).trans (if_neg hq), hframe.data rfl, hframe.program⟩,
    hframe.sameRegsBut rfl, hframe.flags rfl, hframe.sameDevices rfl rfl nofun,
    hframe.pc rfl nofun⟩

end Sys2Proof.Machine
end

/-! ## The jump family (42_jumps.md): where each jump goes, and what its condition decides -/

section
namespace Sys2Proof

/-! ### The words of opcodes 1010 to 1101 -/

/-- A printed `OOOOEEXX` with its major and extended opcode written as one field (R66, R67). -/
theorem append_eq_opcodeByte : ∀ (w : BitVec 6) (x : BitVec 2),
    (w ++ x : Byte) = opcodeByte (w.extractLsb' 2 4) (w.extractLsb' 0 2) x := by
  decide

theorem decode_jWord (x : BitVec 2) (addr : Byte) :
    decode (opcodeByte 0b1010#4 0b00#2 x) addr = .instr (.j addr) := by
  simp [decode, decodeJump]

theorem decode_jrWord (a : BitVec 2) (arg : Byte) :
    decode (opcodeByte 0b1010#4 0b01#2 a) arg = .instr (.jr (Reg.ofBits a)) := by
  simp [decode, decodeJump]

end Sys2Proof

namespace Sys2Proof.Machine
open Sys2Proof.Claims

/-! ### Unconditional jumps -/

theorem State.setPc_onlyPc (s : State) (target : Byte) : OnlyPc s (s.setPc target) := by
  simp [OnlyPc, SameRegs, SameMemory, SameData, SameStack, SameProgram, SameDevices]

/-- Settles O44: both write PC alone. -/
theorem unconditionalJumpInstructions : Obligations.UnconditionalJumpInstructions :=
  ⟨decode_jWord, decode_jrWord,
    fun addr s => ⟨_, rfl, rfl, s.setPc_onlyPc addr⟩,
    fun ra s => ⟨_, rfl, rfl, s.setPc_onlyPc (s.reg ra)⟩⟩

/-- Settles O45: `State.push_stackByte` at SP and at the other cells. -/
theorem jalInstruction : Obligations.JalInstruction := by
  intro addr s
  have hframe := exec_writtenAsListed (i := .jal addr) (s := s) rfl
  have hcell (q : Byte) := s.push_stackByte s.nextPc q
  exact ⟨_, rfl, rfl, (hcell s.sp).trans (if_pos rfl), rfl, rfl,
    ⟨fun q hq => (hcell q).trans (if_neg hq), hframe.data rfl, hframe.program⟩,
    hframe.sameRegs rfl, hframe.flags rfl, hframe.sameDevices rfl rfl nofun⟩

/-- Settles O46: RET is in no list of writers but those of PC and SP. -/
theorem retInstruction : Obligations.RetInstruction := by
  intro s
  have hframe := exec_writtenAsListed (i := .ret) (s := s) rfl
  exact ⟨_, rfl, rfl, rfl, hframe.sameMemory rfl rfl, hframe.sameRegs rfl, hframe.flags rfl,
    hframe.sameDevices rfl rfl nofun⟩

/-! ### Conditional jumps -/

section Conditional
variable {j : Byte → Instr} {P : State → Prop}

/-- The jumps of 42_jumps.md section 3, each from its condition over the flags. -/
theorem jumpsWhen_of_cond {cond : Flags → Bool}
    (hexec : ∀ addr s, exec (j addr) s = jumpOn (cond s.flags) addr s)
    (hcond : ∀ s, cond s.flags = true ↔ P s) : JumpsWhen j P := by
  intro addr s
  refine ⟨_, hexec addr s, s.setPc_onlyPc _, fun hP => ?_, fun hP => ?_⟩
  · exact if_pos ((hcond s).mpr hP)
  · exact if_neg (mt (hcond s).mp hP)

/-- What a condition says of one state decides its jump there. -/
theorem taken_of_jumpsWhen {t : State} {Q : Prop} (h : JumpsWhen j P) (hiff : P t ↔ Q) :
    TakenExactlyWhen t j Q := by
  intro addr
  obtain ⟨u, hu, -, htaken, hnot⟩ := h addr t
  exact ⟨u, hu, fun hQ => htaken (hiff.mpr hQ), fun hQ => hnot (mt hiff.mp hQ)⟩

end Conditional

theorem jumpsWhen_jz : JumpsWhen .jz fun s => s.flags.z = true :=
  jumpsWhen_of_cond (cond := condZ) (fun _ _ => rfl) fun _ => Iff.rfl

theorem jumpsWhen_jnz : JumpsWhen .jnz fun s => s.flags.z = false :=
  jumpsWhen_of_cond (cond := condNZ) (fun _ _ => rfl) (by simp [condNZ])

theorem jumpsWhen_jc : JumpsWhen .jc fun s => s.flags.c = true :=
  jumpsWhen_of_cond (cond := condC) (fun _ _ => rfl) fun _ => Iff.rfl

theorem jumpsWhen_jnc : JumpsWhen .jnc fun s => s.flags.c = false :=
  jumpsWhen_of_cond (cond := condNC) (fun _ _ => rfl) (by simp [condNC])

theorem jumpsWhen_jv : JumpsWhen .jv fun s => s.flags.v = true :=
  jumpsWhen_of_cond (cond := condV) (fun _ _ => rfl) fun _ => Iff.rfl

theorem jumpsWhen_jnv : JumpsWhen .jnv fun s => s.flags.v = false :=
  jumpsWhen_of_cond (cond := condNV) (fun _ _ => rfl) (by simp [condNV])

theorem jumpsWhen_jn : JumpsWhen .jn fun s => s.flags.s = true :=
  jumpsWhen_of_cond (cond := condN) (fun _ _ => rfl) fun _ => Iff.rfl

theorem jumpsWhen_jp : JumpsWhen .jp fun s => s.flags.s = false :=
  jumpsWhen_of_cond (cond := condP) (fun _ _ => rfl) (by simp [condP])

theorem jumpsWhen_jsp : JumpsWhen .jsp fun s => s.flags.s = false ∧ s.flags.z = false :=
  jumpsWhen_of_cond (cond := condSP) (fun _ _ => rfl) (by simp [condSP])

theorem jumpsWhen_jleu : JumpsWhen .jleu fun s => s.flags.c = true ∨ s.flags.z = true :=
  jumpsWhen_of_cond (cond := condLEU) (fun _ _ => rfl) (by simp [condLEU])

theorem jumpsWhen_jlt : JumpsWhen .jlt fun s => s.flags.v ≠ s.flags.s :=
  jumpsWhen_of_cond (cond := condLT) (fun _ _ => rfl) (by simp [condLT])

theorem jumpsWhen_jle : JumpsWhen .jle fun s => s.flags.v ≠ s.flags.s ∨ s.flags.z = true :=
  jumpsWhen_of_cond (cond := condLE) (fun _ _ => rfl) (by simp [condLE])

/-! ### What the conditions decide after CMP-MOVE, CMP-SUB, CMP-SUBI and SUB -/

section Decides
variable {t : State} {a b r : Byte} {cin u : Bool}

/-- Z and S of a byte, by the jumps that look at one of them. -/
theorem takenExactlyWhen_of_zeroSignOf (h : ZeroSignOf t.flags r) :
    TakenExactlyWhen t .jz (r = 0x00) ∧ TakenExactlyWhen t .jnz (r ≠ 0x00) ∧
    TakenExactlyWhen t .jn (r.getLsbD 7 = true) ∧
    TakenExactlyWhen t .jp (r.getLsbD 7 = false) := by
  obtain ⟨hz, hs⟩ := h
  exact ⟨taken_of_jumpsWhen jumpsWhen_jz hz,
    taken_of_jumpsWhen jumpsWhen_jnz (by rw [← Bool.not_eq_true, hz]),
    taken_of_jumpsWhen jumpsWhen_jn (by rw [hs]),
    taken_of_jumpsWhen jumpsWhen_jp (by rw [hs])⟩

/-- Neither S nor Z says that the byte is positive in its signed reading (R162). -/
theorem zeroSignOf_positive_iff {f : Flags} (h : ZeroSignOf f r) :
    f.s = false ∧ f.z = false ↔ 0 < signed r := by
  obtain ⟨hz, hs⟩ := h
  have hzero : r = 0x00 ↔ signed r = 0 := by
    rw [← BitVec.toInt_inj]
    rfl
  rw [hs, getLsbD_seven_eq, ← Bool.not_eq_true f.z, hz, hzero, decide_eq_false_iff_not]
  omega

/-- The twelve rows of R167 and R80, from the flags that a subtraction leaves: C is the unsigned
order, V xor S the signed order (`alu_subb_order`), Z equality. -/
theorem conditionsAfterCompare_of_flags (hflags : t.flags = (alu .sub a b cin u).flags) :
    ConditionsAfterCompare t a b := by
  have hzs : ZeroSignOf t.flags (a - b) := hflags ▸ zeroSignOf_alu .sub a b cin u
  obtain ⟨-, hc, hv⟩ := alu_sub a b cin u
  rw [← hflags] at hc hv
  have hequal : a - b = 0x00 ↔ a = b := sub_eq_zero
  obtain ⟨hjz, hjnz, hjn, hjp⟩ := takenExactlyWhen_of_zeroSignOf hzs
  rw [ne_eq, hequal] at hjnz
  rw [hequal] at hjz
  have hz : t.flags.z = true ↔ a = b := by
    obtain ⟨hzero, -⟩ := hzs
    exact hzero.trans hequal
  have hnc : t.flags.c = false ↔ unsigned b ≤ unsigned a := by
    rw [← Bool.not_eq_true, hc, not_lt]
  have hleu : t.flags.c = true ∨ t.flags.z = true ↔ unsigned a ≤ unsigned b := by
    rw [hc, hz, le_iff_lt_or_eq, BitVec.toNat_inj]
  have hlt : t.flags.v ≠ t.flags.s ↔ signed a < signed b := by
    simpa [hflags, alu_sub_eq_subb] using alu_subb_order a b false u
  have hle : t.flags.v ≠ t.flags.s ∨ t.flags.z = true ↔ signed a ≤ signed b := by
    rw [hlt, hz, le_iff_lt_or_eq, BitVec.toInt_inj]
  have hnv : t.flags.v = false ↔ ¬ OutsideByte (signed a - signed b) := by
    rw [← Bool.not_eq_true, hv]
  exact ⟨hjz, hjnz, taken_of_jumpsWhen jumpsWhen_jc hc, taken_of_jumpsWhen jumpsWhen_jnc hnc,
    taken_of_jumpsWhen jumpsWhen_jleu hleu, taken_of_jumpsWhen jumpsWhen_jlt hlt,
    taken_of_jumpsWhen jumpsWhen_jle hle, hjn, hjp,
    taken_of_jumpsWhen jumpsWhen_jsp (zeroSignOf_positive_iff hzs),
    taken_of_jumpsWhen jumpsWhen_jv hv, taken_of_jumpsWhen jumpsWhen_jnv hnv⟩

end Decides

/-- A compare by subtraction, of registers or of an immediate (R103, R117). -/
theorem aluCompare_sub_conditions (s : State) (a b : Byte) :
    ∃ t, aluCompare s .sub a b = .next t ∧ ConditionsAfterCompare t a b := by
  obtain ⟨t, ht, hflags, -⟩ := aluCompare_effect s .sub a b
  exact ⟨t, ht, conditionsAfterCompare_of_flags hflags⟩

/-- Settles O50: each of the three leaves the flags of one subtraction. -/
theorem conditionsDecideOrderAfterASubtraction :
    Obligations.ConditionsDecideOrderAfterASubtraction := by
  refine ⟨fun ra rb s => aluCompare_sub_conditions s (s.reg ra) (s.reg rb),
    fun ra imm s => aluCompare_sub_conditions s (s.reg ra) imm, fun rd ra rb s => ?_⟩
  obtain ⟨t, ht, -, hflags, -⟩ := aluToReg_effect s .sub rd (s.reg ra) (s.reg rb)
  exact ⟨t, ht, conditionsAfterCompare_of_flags hflags⟩

/-- Settles O48: the words by their fields, the conditions from the flags, JNC from
`aluCompare_sub_conditions`, and CMP-MOVE leaves Z and S of Ra. -/
theorem singleFlagJumpInstructions : Obligations.SingleFlagJumpInstructions := by
  refine ⟨fun x addr => ?_, jumpsWhen_jz, jumpsWhen_jnz, jumpsWhen_jc, jumpsWhen_jnc,
    jumpsWhen_jv, jumpsWhen_jnv, jumpsWhen_jn, jumpsWhen_jp, fun _ _ => ⟨rfl, rfl, rfl⟩,
    fun ra rb s => ?_, fun ra s => ?_⟩
  · simp [append_eq_opcodeByte, decode, byExtended]
  · obtain ⟨t, ht, -, -, -, hjnc, -⟩ := aluCompare_sub_conditions s (s.reg ra) (s.reg rb)
    exact ⟨t, ht, hjnc⟩
  · obtain ⟨t, ht, hflags, -⟩ := aluCompare_effect s .move (s.reg ra) (s.reg ra)
    have hzs : ZeroSignOf t.flags (s.reg ra) := hflags ▸ zeroSignOf_alu ..
    exact ⟨t, ht, takenExactlyWhen_of_zeroSignOf hzs⟩

/-- Settles O49: after CLF neither S nor Z is set, and the orders are those of
`aluCompare_sub_conditions`. -/
theorem combinedFlagJumpInstructions : Obligations.CombinedFlagJumpInstructions := by
  refine ⟨fun x addr => ?_, jumpsWhen_jsp, jumpsWhen_jleu, jumpsWhen_jlt, jumpsWhen_jle,
    fun s => ?_, fun ra rb s => ?_⟩
  · simp [append_eq_opcodeByte, decode, byExtended]
  · obtain ⟨t, ht, hflags, -⟩ := clf_effect s
    exact ⟨t, ht, taken_of_jumpsWhen jumpsWhen_jsp (by simp [hflags, flagsClear])⟩
  · obtain ⟨t, ht, -, -, -, -, hjleu, hjlt, hjle, -⟩ :=
      aluCompare_sub_conditions s (s.reg ra) (s.reg rb)
    exact ⟨t, ht, hjleu, hjlt, hjle⟩

end Sys2Proof.Machine
end

/-! ## The output family (43_output_misc.md): the LCD module, the decimal display, HLT and NOP -/

section
namespace Sys2Proof.Machine
open Sys2Proof.Claims

/-! ### The LCD module -/

/-- An instruction that appends one tagged byte to the trace and goes on changes nothing else
(R180 to R183). -/
theorem sendsToLcd_of_exec {i : Instr} {k : LcdKind} {v : State → Byte}
    (hexec : ∀ s, exec i s = .next (s.lcdSend k (v s)).advance) : SendsToLcd i k v := by
  intro s
  refine ⟨_, hexec s, rfl, ?_⟩
  simp [SameRegs, SameMemory, SameData, SameStack, SameProgram]

/-- Settles O51: the words by their fields, and each instruction is one `State.lcdSend`. -/
theorem lcdInstructions : Obligations.LcdInstructions := by
  refine ⟨fun x y => ?_, fun _ => sendsToLcd_of_exec fun _ => rfl,
    fun _ => sendsToLcd_of_exec fun _ => rfl, fun _ => sendsToLcd_of_exec fun _ => rfl,
    fun _ => sendsToLcd_of_exec fun _ => rfl⟩
  simp [append_eq_opcodeByte, decode, byExtended]

/-! ### The decimal display -/

/-- Writing OUT and going on changes nothing else (R184, R185). -/
theorem setOut_advance_effect (s : State) (v : Byte) :
    (s.setOut v).advance.out = v ∧ (s.setOut v).advance.lcd = s.lcd ∧
    SameRegs s (s.setOut v).advance ∧ (s.setOut v).advance.flags = s.flags ∧
    (s.setOut v).advance.sp = s.sp ∧ SameMemory s (s.setOut v).advance ∧
    (s.setOut v).advance.halted = s.halted ∧ (s.setOut v).advance.pc = s.nextPc := by
  simp [SameRegs, SameMemory, SameData, SameStack, SameProgram]

/-- OUT keeps its value through every instruction but DEC-Reg and DEC-Addr, HLT among them (R26,
R184). -/
theorem exec_keeps_out {i : Instr} (hout : writesOut i = false) (s : State) :
    ∃ t, exec i s = .next t ∧ t.out = s.out := by
  obtain ⟨F, hF, hexec⟩ := exec_hasEffect i
  exact ⟨F s, hexec s, (hF.writtenAsListed s).out hout⟩

/-- Settles O52: both instructions are one `State.setOut`; the others stand in no list of OUT's
writers. -/
theorem decimalDisplayInstructions : Obligations.DecimalDisplayInstructions := by
  refine ⟨fun x y => ?_, fun ra s => ⟨_, rfl, setOut_advance_effect s (s.reg ra)⟩,
    fun addr s => ⟨_, rfl, setOut_advance_effect s (s.dataByte addr)⟩,
    fun i s hout => exec_keeps_out hout s⟩
  simp [append_eq_opcodeByte, decode, byExtended]

/-! ### HLT and NOP -/

/-- Settles O53: HLT is in no list of writers but those of PC and the halted mark, and a halted
machine makes no step (`haltedMachineMakesNoStep`). -/
theorem hltInstruction : Obligations.HltInstruction := by
  refine ⟨fun x arg => ?_, fun s => ?_⟩
  · simp [append_eq_opcodeByte, decode, byExtended]
  · obtain ⟨hhalts, hstops⟩ := haltedMachineMakesNoStep
    obtain ⟨t, ht, hhalted⟩ := hhalts s
    have hframe := exec_writtenAsListed ht
    obtain ⟨-, hnostep⟩ := hstops t hhalted
    exact ⟨t, ht, hhalted, hnostep, hframe.sameRegs rfl, hframe.flags rfl, hframe.sp rfl,
      hframe.sameMemory rfl rfl, hframe.out rfl, hframe.lcd rfl⟩

/-- Settles O54: NOP is `State.advance` alone. -/
theorem nopInstruction : Obligations.NopInstruction := by
  refine ⟨fun x arg => ?_, fun s => rfl⟩
  simp [append_eq_opcodeByte, decode, byExtended]

end Sys2Proof.Machine
end

/-! ## The ABI family (44_abi_macros.md): a call, and what the macros' expansions do -/

section
namespace Sys2Proof.Machine
open Sys2Proof.Claims

/-! ### A call -/

theorem execAll_append_of_next {is : List Instr} {s t : State} (js : List Instr)
    (h : execAll is s = .next t) : execAll (is ++ js) s = execAll js t := by
  induction is generalizing s with
  | nil =>
    cases h
    rfl
  | cons i is ih =>
    obtain ⟨m, hm, hrest⟩ := execAll_cons_eq_next h
    exact (execAll_cons_of_next (is ++ js) hm).trans (ih hrest)

/-- A push and a pop of the same register give back everything but PC and the cell that was free. -/
theorem execAll_push_pop (r : Reg) (s : State) :
    ∃ t, execAll [.push r, .pop r] s = .next t ∧ SameRegs s t ∧ t.sp = s.sp ∧
      t.flags = s.flags ∧ SameData s t ∧ ∀ q, q ≠ s.sp → t.stackByte q = s.stackByte q := by
  obtain ⟨m, hm, hcell, -, hmsp, ⟨hmcells, hmdata, -⟩, hmregs, hmflags, -⟩ :=
    pushInstruction r s
  obtain ⟨t, ht, hreg, hsp, hregs, hflags, ⟨hdata, hstack, -⟩, -⟩ := popInstruction r m
  have htop : m.sp + 1 = s.sp := by rw [hmsp, BitVec.sub_add_cancel]
  refine ⟨t, ?_, fun q => ?_, hsp.trans htop, hflags.trans hmflags,
    fun a => (hdata a).trans (hmdata a), fun q hq => (hstack q).trans (hmcells q hq)⟩
  · rw [execAll_cons_of_next _ hm, execAll_cons_of_next _ ht, execAll]
  · by_cases hq : q = r
    · rw [hq, hreg, htop]
      exact hcell
    · exact (hregs q hq).trans (hmregs q)

/-- Settles O47: the pushed register takes the cell below the return address, which is the top again
when RET pops. -/
theorem callPushPopReturnKeepsTheContract : Obligations.CallPushPopReturnKeepsTheContract := by
  intro addr r s
  obtain ⟨m, hm, -, hcell, -, hmsp, ⟨-, hmdata, -⟩, hmregs, hmflags, -⟩ := jalInstruction addr s
  obtain ⟨n, hn, hnregs, hnsp, hnflags, hndata, hnstack⟩ := execAll_push_pop r m
  obtain ⟨t, ht, hpc, htsp, ⟨htdata, -⟩, htregs, htflags, -⟩ := retInstruction n
  have htop : n.sp + 1 = s.sp := by rw [hnsp, hmsp, BitVec.sub_add_cancel]
  have hbelow : s.sp ≠ m.sp := by
    rw [hmsp]
    bv_omega
  have hregs : SameRegs s t := fun q => (htregs q).trans ((hnregs q).trans (hmregs q))
  have hret : t.pc = s.nextPc :=
    calc t.pc = n.stackByte s.sp := by rw [hpc, htop]
      _ = m.stackByte s.sp := hnstack s.sp hbelow
      _ = s.nextPc := hcell
  refine ⟨t, ?_, ⟨hret, htsp.trans htop, hregs .r2, hregs .r3⟩, hregs, ?_, fun a => ?_⟩
  · rw [execAll_cons_of_next _ hm]
    refine (execAll_append_of_next [.ret] hn).trans ?_
    rw [execAll_cons_of_next _ ht, execAll]
  · rw [htflags, hnflags, hmflags]
  · rw [htdata, hndata, hmdata]

/-! ### INCR and DECR -/

/-- ADDI of a register to itself, with Z told of the old value. -/
theorem execAll_addi_self (ra : Reg) (imm : Byte) (s : State) :
    ∃ t, execAll [.addi ra ra imm] s = .next t ∧ t.reg ra = s.reg ra + imm ∧
      (t.flags.c = true ↔ unsigned (s.reg ra) + unsigned imm > 255) ∧
      (t.flags.z = true ↔ s.reg ra = -imm) ∧
      (t.flags.v = true ↔ OutsideByte (signed (s.reg ra) + signed imm)) ∧
      t.flags.s = (s.reg ra + imm).getLsbD 7 ∧ OnlyRegAndFlags ra s t := by
  obtain ⟨t, ht, hresult, hflags, hframe⟩ := aluToReg_effect s .add ra (s.reg ra) imm
  obtain ⟨-, hc, hv⟩ := alu_add (s.reg ra) imm s.flags.c (Config.undefinedV s.draws)
  obtain ⟨hz, hs⟩ : ZeroSignOf (aluIn s .add (s.reg ra) imm).flags (s.reg ra + imm) :=
    zeroSignOf_alu ..
  refine ⟨t, execAll_cons_of_next (i := .addi ra ra imm) [] ht, hresult, ?_⟩
  rw [hflags]
  exact ⟨hc, hz.trans add_eq_zero_iff_eq_neg, hv, hs, hframe⟩

/-- Settles O56: `execAll_addi_self` at 1 and at -1. -/
theorem incrementAndDecrementFlags : Obligations.IncrementAndDecrementFlags := by
  refine ⟨fun _ _ => rfl, fun _ _ => rfl, rfl, rfl, fun ra s => ?_, fun ra s => ?_⟩
  · obtain ⟨t, ht, hresult, hc, hz, hv, hs, hframe⟩ := execAll_addi_self ra 0x01 s
    have hunsigned := unsigned_lt (s.reg ra)
    have hsigned := signed_bounds (s.reg ra)
    refine ⟨t, ht, hresult, hc.trans ?_, hz, hv.trans ?_, hs, hframe⟩
    · rw [← BitVec.toNat_inj]
      change unsigned (s.reg ra) + 1 > 255 ↔ unsigned (s.reg ra) = 255
      omega
    · rw [← BitVec.toInt_inj]
      change signed (s.reg ra) + 1 < -128 ∨ 127 < signed (s.reg ra) + 1 ↔ signed (s.reg ra) = 127
      omega
  · obtain ⟨t, ht, hresult, hc, hz, hv, hs, hframe⟩ := execAll_addi_self ra 0xFF s
    have hsub : s.reg ra + 0xFF = s.reg ra - 1 := (sub_eq_add_neg (s.reg ra) 1).symm
    have hunsigned := unsigned_lt (s.reg ra)
    have hsigned := signed_bounds (s.reg ra)
    rw [hsub] at hresult hs
    refine ⟨t, ht, hresult, ?_, hz, hv.trans ?_, hs, hframe⟩
    · rw [← Bool.not_eq_true, hc, ← BitVec.toNat_inj]
      change ¬ unsigned (s.reg ra) + 255 > 255 ↔ unsigned (s.reg ra) = 0
      omega
    · rw [← BitVec.toInt_inj]
      change signed (s.reg ra) + -1 < -128 ∨ 127 < signed (s.reg ra) + -1 ↔
        signed (s.reg ra) = -128
      omega

/-! ### SLLC -/

section Sllc
variable (a : Byte) (cin : Bool)

/-- A byte added to itself with a carry-in moves up one place and takes the carry in at bit 0. -/
theorem add_self_carry_eq_shiftConcat : a + a + carryByte cin = a.shiftConcat cin := by
  apply BitVec.eq_of_toNat_eq
  rw [← unsigned, unsigned_add_carry, BitVec.toNat_shiftConcat, Nat.shiftLeft_eq, pow_one, mul_two]

theorem carryOfAdd_self : carryOfAdd a a cin = a.getLsbD 7 := by
  have hcin := Bool.toNat_le cin
  rw [Bool.eq_iff_iff, carryOfAdd_iff, ← shiftedOut_eq_getLsbD, shiftedOut, BitVec.msb_eq_decide,
    decide_eq_true_iff]
  change unsigned a + unsigned a + cin.toNat > 255 ↔ 128 ≤ unsigned a
  omega

/-- The sign of the result is the old bit 6. -/
theorem overflowOfAdd_self : overflowOfAdd a a cin = (a.getLsbD 7 != a.getLsbD 6) := by
  have hsign : (a + a + carryByte cin).getLsbD 7 = a.getLsbD 6 := by
    simp [add_self_carry_eq_shiftConcat]
  rw [Bool.eq_iff_iff, overflowOfAdd_iff_signs, hsign, bne_iff_ne, ne_comm]
  exact and_iff_right rfl

end Sllc

/-- Settles O57: SLLC is ADDC of a register to itself. -/
theorem sllcRotatesThroughTheCarryFlag : Obligations.SllcRotatesThroughTheCarryFlag := by
  intro rd ra s
  obtain ⟨t, ht, hreg, hflags, hframe⟩ := aluToReg_effect s .addc rd (s.reg ra) (s.reg ra)
  have hresult : t.reg rd = (s.reg ra).shiftConcat s.flags.c :=
    hreg.trans (add_self_carry_eq_shiftConcat (s.reg ra) s.flags.c)
  refine ⟨t, execAll_cons_of_next (i := .addc rd ra ra) [] ht, ?_, fun k hk => ?_, ?_, ?_, ?_,
    hframe⟩
  · simp [hresult]
  · have hbit : k + 1 < 8 := by omega
    rw [hresult, BitVec.getLsbD_shiftConcat, decide_eq_true hbit, if_neg (Nat.succ_ne_zero k)]
    rfl
  · rw [hflags]
    exact carryOfAdd_self (s.reg ra) s.flags.c
  · rw [hflags]
    exact overflowOfAdd_self (s.reg ra) s.flags.c
  · rw [hreg, hflags]
    exact zeroSignOf_alu ..

/-! ### Steps through a program text -/

section Steps
variable {s t u : State} {i : Instr} {is : List Instr} {n : Nat}

/-- The instruction that stands at PC is the one that a running machine's step executes. -/
theorem step_of_holdsAt (hrun : s.halted = false) (h : HoldsAt s s.pc (i :: is)) :
    step s = exec i s := by
  obtain ⟨op, arg, hhigh, hlow, hdecode⟩ := h 0 (Nat.succ_pos _)
  rw [BitVec.add_zero] at hhigh hlow
  exact stepRunsTheDecodedInstruction s op arg i hrun hhigh hlow hdecode

/-- Going on to the next instruction leaves the rest of the text at PC. -/
theorem holdsAt_tail (hprogram : SameProgram s u) (hpc : u.pc = s.nextPc)
    (h : HoldsAt s s.pc (i :: is)) : HoldsAt u u.pc is := by
  intro k hk
  have haddr : u.pc + BitVec.ofNat 8 k = s.pc + BitVec.ofNat 8 (k + 1) := by
    rw [hpc, State.nextPc]
    bv_omega
  obtain ⟨hhigh, hlow⟩ := hprogram (s.pc + BitVec.ofNat 8 (k + 1))
  rw [haddr, hhigh, hlow]
  exact h (k + 1) (Nat.succ_lt_succ hk)

theorem reaches_succ_iff :
    Safety.Reaches (n + 1) s t ↔ ∃ u, step s = .next u ∧ Safety.Reaches n u t := by
  have hcore : core.step s = step s := rfl
  cases hstep : step s <;> simp [Safety.Reaches, Host.Core.run, hcore, hstep]

theorem reaches_one (hstep : step s = .next t) : Safety.Reaches 1 s t :=
  reaches_succ_iff.mpr ⟨t, hstep, rfl⟩

/-- A run goes on from where it has come to. -/
theorem reaches_add {k : Nat} (h : Safety.Reaches n s t) (h' : Safety.Reaches k t u) :
    Safety.Reaches (k + n) s u := by
  induction n generalizing s with
  | zero =>
    cases h
    exact h'
  | succ n ih =>
    obtain ⟨m, hstep, hrest⟩ := reaches_succ_iff.mp h
    exact reaches_succ_iff.mpr ⟨m, hstep, ih hrest⟩

end Steps

/-! ### A compare and a jump -/

/-- Nothing but the flags and PC changes. -/
def OnlyFlagsAndPc (s t : State) : Prop :=
  SameRegs s t ∧ t.sp = s.sp ∧ SameMemory s t ∧ SameDevices s t

section Frames
variable {s t u : State} {i : Instr}

theorem OnlyFlagsAndPc.of_onlyFlags (h : OnlyFlags s t) : OnlyFlagsAndPc s t := by
  obtain ⟨hregs, hsp, hmemory, hdevices, -⟩ := h
  exact ⟨hregs, hsp, hmemory, hdevices⟩

theorem OnlyFlagsAndPc.of_onlyPc (h : OnlyPc s t) : OnlyFlagsAndPc s t := by
  obtain ⟨hregs, -, hrest⟩ := h
  exact ⟨hregs, hrest⟩

theorem OnlyFlagsAndPc.halted (h : OnlyFlagsAndPc s t) : t.halted = s.halted := by
  obtain ⟨-, -, -, -, -, hhalted⟩ := h
  exact hhalted

theorem OnlyFlagsAndPc.trans (h : OnlyFlagsAndPc s t) (h' : OnlyFlagsAndPc t u) :
    OnlyFlagsAndPc s u := by
  obtain ⟨hregs, hsp, ⟨hdata, hstack, hprogram⟩, hout, hlcd, hhalted⟩ := h
  obtain ⟨hregs', hsp', ⟨hdata', hstack', hprogram'⟩, hout', hlcd', hhalted'⟩ := h'
  exact ⟨fun q => (hregs' q).trans (hregs q), hsp'.trans hsp,
    ⟨fun a => (hdata' a).trans (hdata a), fun a => (hstack' a).trans (hstack a),
      fun a => ⟨(hprogram' a).1.trans (hprogram a).1, (hprogram' a).2.trans (hprogram a).2⟩⟩,
    hout'.trans hout, hlcd'.trans hlcd, hhalted'.trans hhalted⟩

/-- The jumps but JAL and RET write PC alone (42_jumps.md). -/
theorem exec_jump_onlyPc (hjump : isJump i = true) (hsp : movesSp i = false)
    (h : exec i s = .next t) : OnlyPc s t := by
  have hframe := exec_writtenAsListed h
  cases i with
  | j | jr | jz | jnz | jc | jnc | jv | jnv | jn | jp | jsp | jleu | jlt | jle =>
    exact ⟨hframe.sameRegs rfl, hframe.flags rfl, hframe.sp rfl, hframe.sameMemory rfl rfl,
      hframe.sameDevices rfl rfl nofun⟩
  | jal | ret => cases hsp
  | _ => cases hjump

end Frames

/-- The conditional jump that tests the relation after a compare, where the hardware has one: the
relations "greater" but for the unsigned "greater or equal" have none (42_jumps.md R167). -/
def Relation.jump : Relation → Option (Byte → Instr)
  | .eq => some .jz
  | .ne => some .jnz
  | .ltu => some .jc
  | .leu => some .jleu
  | .geu => some .jnc
  | .lt => some .jlt
  | .le => some .jle
  | .gtu | .gt | .ge => none

/-- The relation that holds exactly when the given one does not. -/
def Relation.negation : Relation → Relation
  | .eq => .ne
  | .ne => .eq
  | .ltu => .geu
  | .leu => .gtu
  | .gtu => .leu
  | .geu => .ltu
  | .lt => .ge
  | .le => .gt
  | .gt => .le
  | .ge => .lt

theorem Relation.holds_negation (c : Relation) (x y : Byte) :
    c.negation.holds x y = !c.holds x y := by
  rw [Bool.eq_iff_iff]
  cases c <;> simp [Relation.negation, Relation.holds]

section Compare
variable {c : Relation} {j : Byte → Instr} {a b target : Byte} {s t : State} {cmp : Instr}
  {is : List Instr}

theorem Relation.jump_taken (hj : c.jump = some j) (h : ConditionsAfterCompare t a b) :
    TakenExactlyWhen t j (c.holds a b = true) := by
  obtain ⟨hjz, hjnz, hjc, hjnc, hjleu, hjlt, hjle, -⟩ := h
  cases c with
  | gtu | gt | ge => cases hj
  | _ =>
    cases hj
    simpa [Relation.holds]

theorem Relation.jump_onlyPc (hj : c.jump = some j) (h : exec (j target) s = .next t) :
    OnlyPc s t := by
  cases c with
  | gtu | gt | ge => cases hj
  | _ =>
    cases hj
    exact exec_jump_onlyPc rfl rfl h

/-- Where a compare stands at PC with the jump of a relation behind it, two steps decide the
relation. -/
theorem reaches_compare_jump (hj : c.jump = some j) (hcmp : exec cmp s = aluCompare s .sub a b)
    (hrun : s.halted = false) (hholds : HoldsAt s s.pc (cmp :: j target :: is)) :
    ∃ t, Safety.Reaches 2 s t ∧ OnlyFlagsAndPc s t ∧ (c.holds a b = true → t.pc = target) ∧
      (¬ c.holds a b = true → t.pc = s.pc + 2 ∧ HoldsAt t t.pc is) := by
  obtain ⟨m, hm, hmflags, hmframe⟩ := aluCompare_effect s .sub a b
  have hconditions : ConditionsAfterCompare m a b := conditionsAfterCompare_of_flags hmflags
  obtain ⟨t, ht, htaken, hnot⟩ := Relation.jump_taken hj hconditions target
  have htframe := Relation.jump_onlyPc hj ht
  have hframe := (OnlyFlagsAndPc.of_onlyFlags hmframe).trans (.of_onlyPc htframe)
  obtain ⟨-, -, ⟨-, -, hmprogram⟩, ⟨-, -, hmhalted⟩, hmpc⟩ := hmframe
  obtain ⟨-, -, -, ⟨-, -, htprogram⟩, -⟩ := htframe
  have hstep : step s = .next m := (step_of_holdsAt hrun hholds).trans (hcmp.trans hm)
  have hjump : HoldsAt m m.pc (j target :: is) := holdsAt_tail hmprogram hmpc hholds
  have hstep' : step m = .next t := (step_of_holdsAt (hmhalted.trans hrun) hjump).trans ht
  refine ⟨t, reaches_add (reaches_one hstep) (reaches_one hstep'), hframe, htaken, fun hfails => ?_⟩
  have hpc : t.pc = m.nextPc := hnot hfails
  refine ⟨?_, holdsAt_tail htprogram hpc hjump⟩
  rw [hpc, State.nextPc, hmpc, State.nextPc, BitVec.add_assoc]
  rfl

end Compare

/-! ### The compare-and-jump macros -/

section Macros
variable {m : AsmMacro} {c : Relation} {j : Byte → Instr} {a b : State → Byte} {addr : Byte}
  {cmp : Instr}

/-- The macros of two instructions: a compare and the jump of the relation itself. -/
theorem macroJumpsWhen_of_jump (hj : c.jump = some j)
    (hexpand : ∀ base, m.expand base = [cmp, j addr])
    (hcmp : ∀ s, exec cmp s = aluCompare s .sub (a s) (b s)) :
    MacroJumpsWhen m addr fun s => c.holds (a s) (b s) = true := by
  intro s hrun hholds
  rw [hexpand] at hholds ⊢
  obtain ⟨t, hreaches, ⟨hregs, hsp, hmemory, hdevices⟩, htaken, hnot⟩ :=
    reaches_compare_jump hj (hcmp s) hrun hholds
  exact ⟨2, t, le_rfl, by decide, hreaches, hregs, hsp, hmemory, hdevices, htaken,
    fun hfails => (hnot hfails).1⟩

/-- The macros of three instructions (R221): a compare, and the jump of the opposite relation over a
J to the target. -/
theorem macroJumpsWhen_of_skip (hj : c.jump = some j)
    (hexpand : ∀ base, m.expand base = [cmp, j (skipOne (base + 1)), .j addr])
    (hcmp : ∀ s, exec cmp s = aluCompare s .sub (a s) (b s)) :
    MacroJumpsWhen m addr fun s => c.negation.holds (a s) (b s) = true := by
  intro s hrun hholds
  rw [hexpand] at hholds ⊢
  obtain ⟨t, hreaches, hframe, hskips, hfalls⟩ := reaches_compare_jump hj (hcmp s) hrun hholds
  cases hc : c.holds (a s) (b s) with
  | true =>
    obtain ⟨hregs, hsp, hmemory, hdevices⟩ := hframe
    have hpc : t.pc = s.pc + 3 := by
      rw [hskips hc, skipOne, BitVec.add_assoc]
      rfl
    exact ⟨2, t, le_rfl, by decide, hreaches, hregs, hsp, hmemory, hdevices,
      by simp [Relation.holds_negation, hc], fun _ => hpc⟩
  | false =>
    obtain ⟨-, hrest⟩ := hfalls (by simp [hc])
    have hjump : step t = .next (t.setPc addr) :=
      step_of_holdsAt (hframe.halted.trans hrun) hrest
    obtain ⟨hregs, hsp, hmemory, hdevices⟩ := hframe.trans (.of_onlyPc (t.setPc_onlyPc addr))
    exact ⟨3, _, by decide, le_rfl, reaches_add hreaches (reaches_one hjump), hregs, hsp, hmemory,
      hdevices, fun _ => rfl, by simp [Relation.holds_negation, hc]⟩

theorem macroJumpsWhen_jumpReg (c : Relation) (ra rb : Reg) (addr : Byte) :
    MacroJumpsWhen (.jumpReg c ra rb addr) addr fun s =>
      c.holds (s.reg ra) (s.reg rb) = true := by
  cases c with
  | gtu => exact macroJumpsWhen_of_jump (c := .ltu) rfl (fun _ => rfl) fun _ => rfl
  | gt => exact macroJumpsWhen_of_jump (c := .lt) rfl (fun _ => rfl) fun _ => rfl
  | ge => exact macroJumpsWhen_of_jump (c := .le) rfl (fun _ => rfl) fun _ => rfl
  | _ => exact macroJumpsWhen_of_jump rfl (fun _ => rfl) fun _ => rfl

theorem macroJumpsWhen_jumpImm (c : Relation) (ra : Reg) (imm addr : Byte) :
    MacroJumpsWhen (.jumpImm c ra imm addr) addr fun s => c.holds (s.reg ra) imm = true := by
  cases c with
  | gtu => exact macroJumpsWhen_of_skip (c := .leu) rfl (fun _ => rfl) fun _ => rfl
  | gt => exact macroJumpsWhen_of_skip (c := .le) rfl (fun _ => rfl) fun _ => rfl
  | ge => exact macroJumpsWhen_of_skip (c := .lt) rfl (fun _ => rfl) fun _ => rfl
  | _ => exact macroJumpsWhen_of_jump rfl (fun _ => rfl) fun _ => rfl

end Macros

/-- Settles O58: the register form swaps the compare where no jump tests the relation, the immediate
form jumps over a J. -/
theorem compareAndJumpMacrosDecideTheirRelation :
    Obligations.CompareAndJumpMacrosDecideTheirRelation :=
  ⟨macroJumpsWhen_jumpReg, macroJumpsWhen_jumpImm⟩

/-! ### Words of the expansions -/

/-- Settles O55: each expansion encodes to its bytes by evaluation. -/
theorem macroExpansionsHaveTheListedBytes : Obligations.MacroExpansionsHaveTheListedBytes :=
  ⟨rfl, rfl, rfl, rfl, rfl, rfl, rfl, rfl, rfl, rfl, rfl, rfl, rfl, rfl, rfl⟩

end Sys2Proof.Machine
end

/-! ## The exceptions family (60_exceptions.md): no instruction traps -/

section
namespace Sys2Proof.Machine

/-- Settles O9: every instruction has an effect, and an effect is a function on all states, so none
is left without a next state. -/
theorem everyInstructionCompletes : Obligations.EveryInstructionCompletes := by
  intro i s
  obtain ⟨F, -, hexec⟩ := exec_hasEffect i
  exact ⟨F s, hexec s⟩

end Sys2Proof.Machine
end

/-! ## The remaining statements: drawn values (93_implementation_defined.md), the spec's words
(95_test_vectors.md) -/

section
namespace Sys2Proof

/-- Settles O4: each listed word has the care bits of its instruction (R68, so the X bits set in it
are not looked at), and 3D 00 stands in the reserved group (R70). -/
theorem specWordsDecodeAsListed : Obligations.SpecWordsDecodeAsListed := by
  refine ⟨?_, ?_, ?_, ?_, ?_, ?_, ?_, decode_of_wordReserved rfl,
    ?_, ?_, ?_, ?_, ?_, ?_, ?_, ?_, ?_⟩
  all_goals exact decode_of_agreesOnCareBits rfl

end Sys2Proof

namespace Sys2Proof.Machine

/-- Settles O18: two runs from states that differ in `draws` alone, compared by the instruction's
effect in `exec_sameButDrawn`. -/
theorem drawnValuesReachOnlyVAndPcAfterHlt : Obligations.DrawnValuesReachOnlyVAndPcAfterHlt :=
  exec_sameButDrawn

end Sys2Proof.Machine
end
